-- ==== Sys2Proof/Word.lean ====
section
/-! DEFINITION. The word types of B64DP: 8-bit bytes and characters, 6-bit sextets, 32-bit registers (R7, R9). -/

namespace Sys2Proof

/-- One byte of DMEM, one text character, one port transfer (R7: CHAR_W = 8). -/
abbrev Byte := BitVec 8

/-- One control/status register or command word (R7: CSR_W = 32). -/
abbrev Word := BitVec 32

/-- A 6-bit alphabet index, 0-63 (R16). -/
abbrev Sextet := BitVec 6

end Sys2Proof
end

