-- ==== Sys2Proof/Config.lean ====
section
/-! DEFINITION. What an implementation or its platform fixes (R7, R59), and the free values the spec leaves open (93_implementation_defined.md U5, U6, U7, U14). -/

namespace Sys2Proof.Config

/-- The two OPEN parameters of the spec. A state carries them and no step changes them, so a claim over
all states is a claim over every parameter value. -/
structure Params where
  /-- DMEM_AW, the width of a DMEM byte address (R7, U1); `Params.wf` states its range 1 to 32. -/
  dmemAw : Nat
  /-- CSR_BASE, the host address of the CSR window (R59, U2). -/
  csrBase : Nat
  deriving DecidableEq, Repr

/-- DMEM_SIZE = 2^DMEM_AW (R7, R50). -/
def Params.dmemSize (p : Params) : Nat := 2 ^ p.dmemAw

/-- CSR_WINDOW: the register window holds 256 bytes (R7). -/
def csrWindow : Nat := 256

/-- The reference parameters: DMEM_AW = 32 (R7); CSR_BASE = 0 is a DESIGN CHOICE, unsafe (assumption 2). -/
def Params.reference : Params := { dmemAw := 32, csrBase := 0 }

/-- A free byte for each draw: nothing constrains it (assumption 5). -/
opaque freeByte : Nat → Byte

/-- A free 32-bit word for each draw: nothing constrains it (assumption 5). -/
opaque freeWord : Nat → Word

end Sys2Proof.Config
end

