-- ==== Sys2Proof/Syntax.lean ====
section
/-! DEFINITION. The commands of opcode_table.json, and the host command script that issues them (R72, R76). -/

namespace Sys2Proof

/-- The 15 commands, in the order of the opcode map (R72). No operand stands in a command word (R70, R71):
each command reads its operands from the argument registers. -/
inductive Instr where
  | nop
  | encode
  | decode
  | decodeAlloc
  | validate
  | tblAlpha
  | tblInv
  | encOpen
  | encWrite
  | encClose
  | decOpen
  | decRead
  | decSkip
  | decAvail
  | decClose
  deriving DecidableEq, Repr

/-- The control/status registers, in the order of their offsets (R23). -/
inductive CsrName where
  | id
  | cmd
  | status
  | result
  | info0
  | info1
  | srcBase
  | srcLen
  | srcOff
  | srcCnt
  | dstBase
  | dstLen
  | dstOff
  | arg
  | encState
  | decState
  | decBuf
  deriving DecidableEq, Repr

/-- How wide a host access to the CSR window is (R53). -/
inductive AccessWidth where
  | byte
  | half
  | word
  deriving DecidableEq, Repr

/-- One thing the outside world does to B64DP, between two steps of its own (R15, R76, R270). -/
inductive Input where
  /-- The host writes `value` at host address `addr` (`csrw`, R76). -/
  | csrWrite (addr : Nat) (width : AccessWidth) (value : Word)
  /-- The host reads host address `addr` (`csrr`, R76). -/
  | csrRead (addr : Nat) (width : AccessWidth)
  /-- The host writes one byte of DMEM (R50). -/
  | dmemWrite (addr : Nat) (value : Byte)
  /-- The host reads one byte of DMEM (R50). -/
  | dmemRead (addr : Nat)
  /-- The host polls STATUS until BUSY reads 0 (`wait`, R77); it stays the next input until then. -/
  | wait
  /-- The platform asserts and releases reset (R270, R272). -/
  | reset
  deriving DecidableEq, Repr

/-- The statements of a host command script: the two of R76, the pseudo-instructions of R77, and the host's
own DMEM accesses (R275 steps 1 and 6). Immediates are integers, as R76 writes them. -/
inductive ScriptLine where
  | csrw (name : CsrName) (imm : Int)
  | csrr (name : CsrName)
  | cmd (i : Instr)
  | wait
  | run (i : Instr)
  | b64write (imm : Int)
  | b64skip (imm : Int)
  | b64src (base len off cnt : Int)
  | b64dst (base len off : Int)
  | dmemw (addr : Nat) (value : Byte)
  | dmemr (addr : Nat)
  deriving DecidableEq, Repr

end Sys2Proof
end

