-- ==== Sys2Proof/WellFormed.lean ====
section
/-! DEFINITION. What is well formed: a command, a command word (R70, R72, R74), a host access (R53), the parameters (R7). -/

namespace Sys2Proof

/-- A command carries no operand (R70, R71), so every command is well formed. -/
def Instr.wf : Instr → Bool
  | .nop | .encode | .decode | .decodeAlloc | .validate | .tblAlpha | .tblInv | .encOpen | .encWrite
  | .encClose | .decOpen | .decRead | .decSkip | .decAvail | .decClose => true

/-- OPCODE, bits [7:0] of a command word (R70). -/
def opcodeField (w : Word) : Byte := w.extractLsb' 0 8

/-- RSV, bits [31:8] of a command word, which must be 0 (R70). -/
def reservedField (w : Word) : BitVec 24 := w.extractLsb' 8 24

/-- The opcodes R74 leaves unassigned: 0x05-0x07, 0x0A-0x0F, 0x13-0x1F and 0x25-0xFF. -/
def opcodeUnassigned (op : Byte) : Bool :=
  let n := op.toNat
  (0x05 ≤ n && n ≤ 0x07) || (0x0A ≤ n && n ≤ 0x0F) || (0x13 ≤ n && n ≤ 0x1F) || (0x25 ≤ n)

/-- A legal command word (R70, R74): its reserved bits are 0 and its opcode is assigned. -/
def commandWordWf (w : Word) : Bool :=
  reservedField w == 0 && !opcodeUnassigned (opcodeField w)

/-- How many bytes a host access covers. -/
def AccessWidth.bytes : AccessWidth → Nat
  | .byte => 1
  | .half => 2
  | .word => 4

/-- DMEM_AW lies between 1 and 32 (R7). CSR_BASE may be any address (R59; assumption 9 for one that is not a
multiple of 4). -/
def Config.Params.wf (p : Config.Params) : Bool :=
  1 ≤ p.dmemAw && p.dmemAw ≤ 32

/-- The host access touches some byte of the CSR window. -/
def touchesWindow (p : Config.Params) (addr : Nat) (width : AccessWidth) : Bool :=
  addr < p.csrBase + Config.csrWindow && p.csrBase < addr + width.bytes

/-- An access to the window is a 32-bit one at an offset that is a multiple of 4 (R53, R55). The offset alone is
judged, so that a CSR_BASE that is not a multiple of 4, on which the spec is silent, leaves every register in reach
(DESIGN CHOICE, assumption 9). -/
def alignedAccess (p : Config.Params) (addr : Nat) (width : AccessWidth) : Bool :=
  width == .word && p.csrBase ≤ addr && (addr - p.csrBase) % 4 == 0

/-- A host input that keeps the interface: CSR accesses as R53 wants them, DMEM accesses inside DMEM (R50). -/
def Input.wf (p : Config.Params) : Input → Bool
  | .csrWrite addr width _ => !touchesWindow p addr width || alignedAccess p addr width
  | .csrRead addr width => !touchesWindow p addr width || alignedAccess p addr width
  | .dmemWrite addr _ => addr < p.dmemSize
  | .dmemRead addr => addr < p.dmemSize
  | .wait => true
  | .reset => true

end Sys2Proof
end

