-- ==== Sys2Proof/Decode.lean ====
section
/-! DEFINITION. Decoding and encoding of command words (R70-R75), and the offsets of the CSRs (R23). -/

namespace Sys2Proof

/-- Why a word is no command (R74). Both reasons end in status ILLEGAL_COMMAND (R235). -/
inductive DecodeError where
  /-- Bits [31:8] are not 0. -/
  | reservedBits (w : Word)
  /-- The OPCODE is one of the unassigned ones. -/
  | unassignedOpcode (op : Byte)
  deriving DecidableEq, Repr

/-- One row of the opcode map: the word matches when its bits under the mask equal the pattern (R73). -/
structure OpcodeRow where
  mask : Word
  pattern : Word
  instr : Instr
  deriving DecidableEq, Repr

/-- A row of mask 0xFFFF_FFFF, as every row of opcode_table.json has (R73). -/
def opcodeRow (pattern : Word) (instr : Instr) : OpcodeRow := ⟨0xFFFFFFFF#32, pattern, instr⟩

/-- The opcode map of R72, row by row. -/
def opcodeRows : List OpcodeRow :=
  [ opcodeRow 0x00000000#32 .nop,
    opcodeRow 0x00000001#32 .encode,
    opcodeRow 0x00000002#32 .decode,
    opcodeRow 0x00000003#32 .decodeAlloc,
    opcodeRow 0x00000004#32 .validate ] ++
  [ opcodeRow 0x00000008#32 .tblAlpha,
    opcodeRow 0x00000009#32 .tblInv ] ++
  [ opcodeRow 0x00000010#32 .encOpen,
    opcodeRow 0x00000011#32 .encWrite,
    opcodeRow 0x00000012#32 .encClose ] ++
  [ opcodeRow 0x00000020#32 .decOpen,
    opcodeRow 0x00000021#32 .decRead,
    opcodeRow 0x00000022#32 .decSkip,
    opcodeRow 0x00000023#32 .decAvail,
    opcodeRow 0x00000024#32 .decClose ]

/-- The row a word selects, if any (R73). -/
def selectedRow (w : Word) : Option OpcodeRow :=
  opcodeRows.find? fun r => w &&& r.mask == r.pattern

/-- Decoding of a command word: total, rejecting by name (R73-R75). -/
def decode (w : Word) : Except DecodeError Instr :=
  match selectedRow w with
  | some r => .ok r.instr
  | none => if reservedField w == 0 then .error (.unassignedOpcode (opcodeField w)) else .error (.reservedBits w)

/-- The OPCODE of each command (R72). -/
def opcodeOf : Instr → Byte
  | .nop => 0x00#8
  | .encode => 0x01#8
  | .decode => 0x02#8
  | .decodeAlloc => 0x03#8
  | .validate => 0x04#8
  | .tblAlpha => 0x08#8
  | .tblInv => 0x09#8
  | .encOpen => 0x10#8
  | .encWrite => 0x11#8
  | .encClose => 0x12#8
  | .decOpen => 0x20#8
  | .decRead => 0x21#8
  | .decSkip => 0x22#8
  | .decAvail => 0x23#8
  | .decClose => 0x24#8

/-- The command word of each command: OPCODE in [7:0], reserved bits 0 (R70). -/
def encode (i : Instr) : Word := (0#24) ++ opcodeOf i

/-- The instruction the decoder reads from a word of the opcode table's numbering (bit 0 the least significant).
A command word is 32 bits; a longer number is no command word. -/
def decodeTableWord (nbits w : Nat) : Option Instr :=
  let bits := w % 2 ^ nbits
  if bits < 2 ^ 32 then
    match decode (BitVec.ofNat 32 bits) with
    | .ok i => some i
    | .error _ => none
  else none

/-- The byte offset of each CSR in the window (R23). -/
def csrOffset : CsrName → Nat
  | .id => 0x00
  | .cmd => 0x04
  | .status => 0x08
  | .result => 0x0C
  | .info0 => 0x10
  | .info1 => 0x14
  | .srcBase => 0x18
  | .srcLen => 0x1C
  | .srcOff => 0x20
  | .srcCnt => 0x24
  | .dstBase => 0x28
  | .dstLen => 0x2C
  | .dstOff => 0x30
  | .arg => 0x34
  | .encState => 0x38
  | .decState => 0x3C
  | .decBuf => 0x40

/-- Every CSR, in offset order. -/
def allCsrs : List CsrName :=
  [.id, .cmd, .status, .result, .info0, .info1, .srcBase, .srcLen, .srcOff, .srcCnt] ++
  [.dstBase, .dstLen, .dstOff, .arg, .encState, .decState, .decBuf]

/-- The CSR at an offset; none at the reserved offsets 0x44-0xFC (R35). -/
def csrAt (off : Nat) : Option CsrName := allCsrs.find? fun n => csrOffset n == off

end Sys2Proof
end

