-- ==== Sys2Proof/Machine/State.lean ====
section
/-! DEFINITION. The state of B64DP (10_state.md), of the memory and ports around it, and the reasons a step can stop. -/

namespace Sys2Proof.Machine

/-- The status codes (R240). 0xE and 0xF are never produced (U17), so they have no constructor. -/
inductive Code where
  | ok
  | endOfInput
  | cannotSkip
  | invalidRange
  | invalidLength
  | bufferTooSmall
  | invalidCharacter
  | unexpectedEndOfInput
  | sinkError
  | sourceError
  | streamClosed
  | busError
  | regionOverlap
  | illegalCommand
  deriving DecidableEq, Repr

/-- ENC.MODE (R40): OPEN is `opened`. -/
inductive EncMode where
  | opened
  | closed
  | failed
  deriving DecidableEq, Repr

/-- DEC.MODE (R44). -/
inductive DecMode where
  | active
  | eoi
  | closed
  | failed
  deriving DecidableEq, Repr

/-- A holding buffer of three bytes: ENC.HB[0..2] (R40) and DEC.BUF[0..2] (R44). -/
structure Buf3 where
  b0 : Byte
  b1 : Byte
  b2 : Byte
  deriving DecidableEq, Repr

/-- The empty holding buffer. -/
def Buf3.zero : Buf3 := ⟨0, 0, 0⟩

/-- A fail latch: FAIL_CODE, FAIL_INFO0, FAIL_INFO1 (R43, R47). -/
structure Latch where
  code : Code
  info0 : Word
  info1 : Word
  deriving DecidableEq, Repr

/-- The empty fail latch (0, 0, 0) (R43, R47). -/
def Latch.empty : Latch := ⟨.ok, 0, 0⟩

/-- The argument registers (R29, R30, R31). -/
structure Args where
  srcBase : Word
  srcLen : Word
  srcOff : Word
  srcCnt : Word
  dstBase : Word
  dstLen : Word
  dstOff : Word
  arg : Word
  deriving DecidableEq, Repr

/-- The streaming encoder (R40, R43). -/
structure Encoder where
  mode : EncMode
  fill : Fin 4
  hb : Buf3
  latch : Latch
  deriving DecidableEq, Repr

/-- The encoder's reset state (R42), which ENC_OPEN restores (R172). -/
def Encoder.fresh : Encoder := ⟨.opened, 0, .zero, .empty⟩

/-- The streaming decoder (R44, R47). -/
structure Decoder where
  mode : DecMode
  cursor : Fin 4
  valid : Fin 4
  buf : Buf3
  latch : Latch
  deriving DecidableEq, Repr

/-- The decoder's reset state (R46), which DEC_OPEN restores (R195). -/
def Decoder.fresh : Decoder := ⟨.active, 0, 0, .zero, .empty⟩

/-- DMEM (R50): the bytes that differ from what an unlisted address reads as, addresses strictly rising. -/
abbrev Memory := List Host.Cell

/-- A run of DMEM bytes (R56). -/
structure Region where
  start : Nat
  len : Nat
  deriving DecidableEq, Repr

/-- The region of no bytes. -/
def Region.none : Region := ⟨0, 0⟩

/-- An answer to SinkPut, SinkClose or SrcClose (R170, R190). -/
inductive Answer where
  | ack
  | err (info : Word)
  deriving DecidableEq, Repr

/-- An answer to SrcRead (R190). -/
inductive ReadAnswer where
  | char (c : Byte)
  | eof
  | err (info : Word)
  deriving DecidableEq, Repr

/-- An answer to SrcSkip (R190). -/
inductive SkipAnswer where
  | skipped (count : Word)
  | err (info : Word)
  deriving DecidableEq, Repr

/-- An answer to SrcAvail (R190). -/
inductive AvailAnswer where
  | count (chars : Word)
  | err (info : Word)
  deriving DecidableEq, Repr

/-- A request on the sink port (R170). -/
inductive SinkReq where
  | put (c : Byte)
  | close
  deriving DecidableEq, Repr

/-- A request on the source port (R190). -/
inductive SrcReq where
  | read
  | skip (chars : Nat)
  | avail
  | close
  deriving DecidableEq, Repr

/-- The sink and its port (R170). `putAnswers` and `closeAnswers` are the answers the sink will give to the
requests to come, oldest first, each with the number of steps it takes; an empty list is a sink that never
answers (R283). `log` is every request issued, `accepted` every character the sink answered ACK to, oldest first. -/
structure SinkPort where
  putAnswers : List (Nat × Answer)
  closeAnswers : List (Nat × Answer)
  log : List SinkReq
  accepted : List Byte
  deriving DecidableEq, Repr

/-- The source and its port (R190), in the same form: one list of answers to come for each kind of request,
and the log of every request issued, oldest first. -/
structure SourcePort where
  readAnswers : List (Nat × ReadAnswer)
  skipAnswers : List (Nat × SkipAnswer)
  availAnswers : List (Nat × AvailAnswer)
  closeAnswers : List (Nat × Answer)
  log : List SrcReq
  deriving DecidableEq, Repr

/-- What an EncEmit is part of (R174): ENC_WRITE completing a group (R173), or ENC_CLOSE flushing one (R176). -/
inductive EmitFor where
  | write
  | close
  deriving DecidableEq, Repr

/-- What a PullGroup is part of (R194): DEC_READ (R200), or step 3 of DEC_SKIP with the bytes skipped so far
and the bytes still to skip (R204, R211). -/
inductive PullFor where
  | read
  | skip (total left : Nat)
  deriving DecidableEq, Repr

/-- Where the command engine stands (R22). `idle` is BUSY = 0; every other phase is BUSY = 1. -/
inductive Phase where
  /-- IDLE: no command runs. -/
  | idle
  /-- A command is being executed, between two port requests. -/
  | running
  /-- A command was accepted and takes `steps` more steps before its effects (R61, R286). `src` and `dst` are
  the regions the host must not touch meanwhile (R62); `broken` says that it did. -/
  | accepted (steps : Nat) (src dst : Region) (broken : Bool)
  /-- SinkPut(`c`) is outstanding; `rest` are the characters of the group after it (R174). -/
  | putting (c : Byte) (rest : List Byte) (goal : EmitFor)
  /-- SinkClose is outstanding, after `sent` characters of this command (R176). -/
  | closingSink (sent : Nat)
  /-- SrcRead is outstanding; `got` are the characters of the group received so far (R194). -/
  | pulling (got : List Byte) (goal : PullFor)
  /-- SrcSkip(`chars`) is outstanding, with the bytes skipped so far and still to skip (R204). -/
  | skipping (chars total left : Nat)
  /-- SrcAvail is outstanding (R213). -/
  | availing
  /-- SrcClose is outstanding (R215). -/
  | closingSource
  deriving DecidableEq, Repr

/-- What a host read returned. -/
inductive HostReply where
  | csr (off : Nat) (value : Word)
  | dmem (addr : Nat) (value : Byte)
  deriving DecidableEq, Repr

/-- Everything the spec gives the machine (R20), the DMEM and ports beside it (R50, R170, R190), and what the
outside world does to it. ID (R24) and the ROMs (R48) are constants and stand in no field. -/
structure State where
  /-- DMEM_AW and CSR_BASE (R7, R59); no step changes them. -/
  params : Config.Params
  /-- STATUS.BUSY and the engine's progress inside a command (R22). -/
  phase : Phase
  /-- The latched command word (R22, R25); none while IDLE. -/
  cmdWord : Option Word
  /-- STATUS.DONE (R26). -/
  done : Bool
  /-- STATUS.OVR (R26). -/
  ovr : Bool
  /-- STATUS.CODE (R26, R240). -/
  code : Code
  /-- RESULT (R27). -/
  result : Word
  /-- INFO0 (R28). -/
  info0 : Word
  /-- INFO1 (R28). -/
  info1 : Word
  /-- The argument registers (R29-R31). -/
  args : Args
  /-- The streaming encoder (R40). -/
  enc : Encoder
  /-- The streaming decoder (R44). -/
  dec : Decoder
  /-- DMEM (R50). -/
  dmem : Memory
  /-- The sink and its port (R170). -/
  sink : SinkPort
  /-- The source and its port (R190). -/
  source : SourcePort
  /-- What the host and the platform do next, oldest first (R15, R76). -/
  inputs : List Input
  /-- How many steps each command to come stays accepted before its effects, oldest first; an empty list
  reads as 0 (R286, U16). -/
  latency : List Nat
  /-- What the host's reads returned, oldest first. -/
  hostLog : List HostReply
  /-- How many free values have been drawn (the model's own field, assumption 5). -/
  draws : Nat
  deriving DecidableEq, Repr

/-- Why a step stops the machine. Each stop is safe: the model goes no further where a real system might. -/
inductive Fault where
  /-- A host read or write of DMEM at an address that does not exist (R50: addresses run from 0 to
  DMEM_SIZE − 1). Raised by the host's DMEM accesses; safe. -/
  | noSuchDmemAddress (addr : Nat)
  /-- ENC_WRITE with FILL = 3, where HB[3] would be written: no such byte exists (R40), and no run reaches it
  (R41: FILL ≤ 2 whenever BUSY = 0). Raised by ENC_WRITE; safe. -/
  | encoderBufferFull
  deriving DecidableEq, Repr

/-- Why a step is outside the interface of the spec. -/
inductive Refusal where
  /-- The command has no meaning yet. Raised by `exec` alone; safe. -/
  | notModelled (mnemonic : String)
  /-- A host access to the CSR window that is not an aligned 32-bit one (R53, U4: "refuse"). Raised by the
  host's CSR accesses; safe. -/
  | csrAccessShape (addr : Nat) (width : AccessWidth)
  /-- The source answered SrcSkip with more characters than were asked for (R190, U11: "a model gives the
  source no such move"). Raised by DEC_SKIP's fast path; safe. -/
  | skipAnswerTooLarge (asked answered : Nat)
  deriving DecidableEq, Repr

/-- B64DP right after reset (R270): engine IDLE, every register and both adapters at their reset values, and
nothing connected yet: no input, no answer, no DMEM byte listed. -/
def State.reset : State where
  params := Config.Params.reference
  phase := .idle
  cmdWord := none
  done := false
  ovr := false
  code := .ok
  result := 0
  info0 := 0
  info1 := 0
  args := ⟨0, 0, 0, 0, 0, 0, 0, 0⟩
  enc := .fresh
  dec := .fresh
  dmem := []
  sink := ⟨[], [], [], []⟩
  source := ⟨[], [], [], [], []⟩
  inputs := []
  latency := []
  hostLog := []
  draws := 0

end Sys2Proof.Machine
end

