-- ==== Sys2Proof/Machine/Flags.lean ====
section
/-! DEFINITION. Status codes and the words STATUS, ENC_STATE, DEC_STATE and DEC_BUF show (R26, R32-R34, R240). -/

namespace Sys2Proof.Machine

/-- The number of a status code (R240). -/
def Code.bits : Code → BitVec 4
  | .ok => 0x0#4
  | .endOfInput => 0x1#4
  | .cannotSkip => 0x2#4
  | .invalidRange => 0x3#4
  | .invalidLength => 0x4#4
  | .bufferTooSmall => 0x5#4
  | .invalidCharacter => 0x6#4
  | .unexpectedEndOfInput => 0x7#4
  | .sinkError => 0x8#4
  | .sourceError => 0x9#4
  | .streamClosed => 0xA#4
  | .busError => 0xB#4
  | .regionOverlap => 0xC#4
  | .illegalCommand => 0xD#4

/-- The error codes are all but OK, END_OF_INPUT and CANNOT_SKIP (R18, R240). -/
def Code.isError : Code → Bool
  | .ok => false
  | .endOfInput => false
  | .cannotSkip => false
  | _ => true

/-- The codes in the order of their numbers. -/
def allCodes : List Code :=
  [.ok, .endOfInput, .cannotSkip, .invalidRange, .invalidLength, .bufferTooSmall, .invalidCharacter] ++
  [.unexpectedEndOfInput, .sinkError, .sourceError, .streamClosed, .busError, .regionOverlap, .illegalCommand]

/-- The code a free word stands for: any of the 14 produced codes (R62, U17). -/
def codeOfWord (w : Word) : Code := allCodes.getD (w.toNat % 14) .ok

/-- STATUS.BUSY (R22): the engine executes a command. -/
def State.busy (s : State) : Bool :=
  match s.phase with
  | .idle => false
  | _ => true

/-- One flag as a bit of a word. -/
def flagBit (b : Bool) : BitVec 1 := if b then 1#1 else 0#1

/-- A STATUS word from its fields: BUSY [0], DONE [1], OVR [2], CODE [11:8], the rest 0 (R26). -/
def statusOf (busy done ovr : Bool) (code : BitVec 4) : Word :=
  (0#20) ++ (code ++ ((0#5) ++ (flagBit ovr ++ (flagBit done ++ flagBit busy))))

/-- The STATUS word of an idle machine (R26). -/
def State.statusWord (s : State) : Word := statusOf s.busy s.done s.ovr s.code.bits

/-- ENC_STATE.MODE (R32). -/
def EncMode.bits : EncMode → BitVec 2
  | .opened => 0#2
  | .closed => 1#2
  | .failed => 2#2

/-- DEC_STATE.MODE (R33). -/
def DecMode.bits : DecMode → BitVec 2
  | .active => 0#2
  | .eoi => 1#2
  | .closed => 2#2
  | .failed => 3#2

/-- ENC_STATE: FILL [1:0], MODE [3:2], FAIL_CODE [7:4], HB0 [15:8], HB1 [23:16] (R32). -/
def Encoder.stateWord (e : Encoder) : Word :=
  (0#8) ++ (e.hb.b1 ++ (e.hb.b0 ++ (e.latch.code.bits ++ (e.mode.bits ++ BitVec.ofNat 2 e.fill.val))))

/-- DEC_STATE: CURSOR [1:0], VALID [3:2], MODE [5:4], FAIL_CODE [11:8] (R33). -/
def Decoder.stateWord (d : Decoder) : Word :=
  (0#20) ++ (d.latch.code.bits ++ ((0#2) ++ (d.mode.bits ++ (BitVec.ofNat 2 d.valid.val ++ BitVec.ofNat 2 d.cursor.val))))

/-- DEC_BUF: BUF0 [7:0], BUF1 [15:8], BUF2 [23:16] (R34). -/
def Decoder.bufWord (d : Decoder) : Word := (0#8) ++ (d.buf.b2 ++ (d.buf.b1 ++ d.buf.b0))

end Sys2Proof.Machine
end

