-- ==== Sys2Proof/Machine/Operands.lean ====
section
/-! DEFINITION. How each command reads its operands from the argument registers (R10, R71, R130). -/

namespace Sys2Proof.Machine

/-- zext_32 of a byte (R10). -/
def zext (b : Byte) : Word := b.setWidth 32

/-- sext_32: a register read as two's-complement signed (R10). -/
def sext (w : Word) : Int := w.toInt

/-- SrcOff, signed (R130). -/
def State.srcOff (s : State) : Int := sext s.args.srcOff

/-- SrcCnt, signed (R130). -/
def State.srcCnt (s : State) : Int := sext s.args.srcCnt

/-- SrcLen, unsigned (R130). -/
def State.srcLen (s : State) : Nat := s.args.srcLen.toNat

/-- SRC_BASE, unsigned (R10, R29). -/
def State.srcBase (s : State) : Nat := s.args.srcBase.toNat

/-- DstOff, signed (R130). -/
def State.dstOff (s : State) : Int := sext s.args.dstOff

/-- DstLen, unsigned (R130). -/
def State.dstLen (s : State) : Nat := s.args.dstLen.toNat

/-- DST_BASE, unsigned (R10, R30). -/
def State.dstBase (s : State) : Nat := s.args.dstBase.toNat

/-- ARG read unsigned: the operand of TBL_ALPHA and TBL_INV (R31). -/
def State.argNat (s : State) : Nat := s.args.arg.toNat

/-- ARG[7:0]: the byte of ENC_WRITE; ARG[31:8] is ignored (R31, R71). -/
def State.argByte (s : State) : Byte := s.args.arg.extractLsb' 0 8

/-- sext_32(ARG): the n of DEC_SKIP (R31, R71). -/
def State.argInt (s : State) : Int := sext s.args.arg

/-- A start address or count reported in a 32-bit word: its value mod 2^32 (R241). -/
def toWord (n : Nat) : Word := BitVec.ofNat 32 n

end Sys2Proof.Machine
end

