-- ==== Sys2Proof/Machine/Ops.lean ====
section
/-! DEFINITION. The shared operations: DMEM, regions, acceptance and completion of a command, the ports (R52, R56, R57, R170, R190, R230, R232). -/

namespace Sys2Proof.Machine

/-- The outcome of a command or of a step. -/
abbrev Result := Host.Outcome State Fault Refusal

/-- What a DMEM byte that is not listed reads as: 0, a DESIGN CHOICE, unsafe (assumption 3; R50, U3 leave it open). -/
def Memory.unlisted : Byte := 0#8

/-- MemRead(addr, 1) (R11, R52). -/
def Memory.read : Memory → Nat → Byte
  | [], _ => Memory.unlisted
  | (k, v) :: rest, a => if k = a then v else Memory.read rest a

/-- MemWrite(addr, 1, v) (R11, R52), keeping the canonical form. -/
def Memory.write : Memory → Nat → Byte → Memory
  | [], a, v => if v = Memory.unlisted then [] else [(a, v)]
  | (k, x) :: rest, a, v =>
    if a < k then
      if v = Memory.unlisted then (k, x) :: rest else (a, v) :: (k, x) :: rest
    else if a = k then
      if v = Memory.unlisted then rest else (a, v) :: rest
    else (k, x) :: Memory.write rest a v

/-- The bytes of a region, in increasing address order (R54). -/
def Memory.readBytes (m : Memory) (a : Nat) : Nat → List Byte
  | 0 => []
  | n + 1 => Memory.read m a :: Memory.readBytes m (a + 1) n

/-- Byte i of the list goes to address a + i (R54). -/
def Memory.writeBytes : Memory → Nat → List Byte → Memory
  | m, _, [] => m
  | m, a, v :: vs => Memory.writeBytes (Memory.write m a v) (a + 1) vs

/-- The canonical form: addresses strictly rising, and no entry equal to what an unlisted address reads as. -/
def Memory.wf (m : Memory) : Bool :=
  decide (List.Pairwise (fun (x y : Host.Cell) => x.1 < y.1) m) && m.all fun c => c.2 != Memory.unlisted

/-- Every listed byte lies in DMEM (R50). -/
def Memory.inside (m : Memory) (size : Nat) : Bool := m.all fun c => c.1 < size

/-- `n` free bytes, drawn from number `draw` on (assumption 5). -/
def freeBytes (draw : Nat) : Nat → List Byte
  | 0 => []
  | n + 1 => Config.freeByte draw :: freeBytes (draw + 1) n

/-- The region is in DMEM: `n = 0` or `start + n ≤ DMEM_SIZE`, computed exactly (R56). -/
def Region.inDmem (r : Region) (size : Nat) : Bool := r.len == 0 || r.start + r.len ≤ size

/-- Two regions overlap (R57). -/
def Region.overlap (r q : Region) : Bool :=
  0 < r.len && 0 < q.len && r.start < q.start + q.len && q.start < r.start + r.len

/-- The address is one of the region's bytes. -/
def Region.contains (r : Region) (a : Nat) : Bool := r.start ≤ a && a < r.start + r.len

/-- Write bytes to DMEM from an address on. -/
def State.store (s : State) (a : Nat) (vs : List Byte) : State :=
  { s with dmem := Memory.writeBytes s.dmem a vs }

/-- Every byte of the region takes a free value (R62, R144, R272). -/
def State.scramble (s : State) (r : Region) : State :=
  { s with dmem := Memory.writeBytes s.dmem r.start (freeBytes s.draws r.len), draws := s.draws + r.len }

/-- Acceptance of a command word (R230): BUSY set, DONE and OVR cleared, the word latched. -/
def State.accept (s : State) (w : Word) : State :=
  { s with phase := .running, cmdWord := some w, done := false, ovr := false }

/-- Completion of a command (R232): RESULT is 0 with an error code. This is the one operation that ends a
command, B64DP's form of taking an exception (R251). -/
def State.finish (s : State) (code : Code) (result info0 info1 : Word) : State :=
  { s with
    code := code
    result := if code.isError then 0 else result
    info0 := info0
    info1 := info1
    phase := .idle
    cmdWord := none
    done := true }

/-- `raise CODE(info0, info1)` (R11). -/
def State.raise (s : State) (code : Code) (info0 info1 : Word) : State := s.finish code 0 info0 info1

/-- The sticky re-report of a failed adapter (R246). -/
def State.reReport (s : State) (l : Latch) : State := s.raise l.code l.info0 l.info1

/-- Completion with unspecified values, after the host broke its duty of R62: the destination bytes, CODE, RESULT,
INFO0 and INFO1 are free. -/
def State.finishUnspecified (s : State) (dst : Region) : State :=
  let t := s.scramble dst
  { t with
    code := codeOfWord (Config.freeWord t.draws)
    result := Config.freeWord (t.draws + 1)
    info0 := Config.freeWord (t.draws + 2)
    info1 := Config.freeWord (t.draws + 3)
    phase := .idle
    cmdWord := none
    done := true
    draws := t.draws + 4 }

/-- An answer that needs no more steps, and the answers after it. -/
def readyAnswer {α : Type} : List (Nat × α) → Option (α × List (Nat × α))
  | (0, a) :: rest => some (a, rest)
  | _ => none

/-- One step passes for the answer that is due next. -/
def elapse {α : Type} : List (Nat × α) → List (Nat × α)
  | (d + 1, a) :: rest => (d, a) :: rest
  | answers => answers

/-- SinkPut(c) is issued (R170). -/
def State.issuePut (s : State) (c : Byte) : State :=
  { s with sink := { s.sink with log := s.sink.log ++ [.put c] } }

/-- SinkClose is issued (R170). -/
def State.issueSinkClose (s : State) : State :=
  { s with sink := { s.sink with log := s.sink.log ++ [.close] } }

/-- A source request is issued (R190). -/
def State.issueSource (s : State) (r : SrcReq) : State :=
  { s with source := { s.source with log := s.source.log ++ [r] } }

/-- The sink's answers to SinkPut that are still to come. -/
def State.withPutAnswers (s : State) (q : List (Nat × Answer)) : State :=
  { s with sink := { s.sink with putAnswers := q } }

/-- The sink has accepted a character. -/
def State.sinkAccepts (s : State) (c : Byte) : State :=
  { s with sink := { s.sink with accepted := s.sink.accepted ++ [c] } }

/-- The sink's answers to SinkClose that are still to come. -/
def State.withSinkCloseAnswers (s : State) (q : List (Nat × Answer)) : State :=
  { s with sink := { s.sink with closeAnswers := q } }

/-- The source's answers to SrcRead that are still to come. -/
def State.withReadAnswers (s : State) (q : List (Nat × ReadAnswer)) : State :=
  { s with source := { s.source with readAnswers := q } }

/-- The source's answers to SrcSkip that are still to come. -/
def State.withSkipAnswers (s : State) (q : List (Nat × SkipAnswer)) : State :=
  { s with source := { s.source with skipAnswers := q } }

/-- The source's answers to SrcAvail that are still to come. -/
def State.withAvailAnswers (s : State) (q : List (Nat × AvailAnswer)) : State :=
  { s with source := { s.source with availAnswers := q } }

/-- The source's answers to SrcClose that are still to come. -/
def State.withSrcCloseAnswers (s : State) (q : List (Nat × Answer)) : State :=
  { s with source := { s.source with closeAnswers := q } }

/-- The engine waits, BUSY = 1 (R22, R283). -/
def State.waitIn (s : State) (p : Phase) : State := { s with phase := p }

end Sys2Proof.Machine
end

