-- ==== Sys2Proof/Machine/Tables.lean ====
section
/-! DEFINITION. The ROMs and the two table commands (R100-R107, R120-R122). -/

namespace Sys2Proof.Machine

/-- The pad character `=` (R101). -/
def padCode : Byte := 0x3D#8

/-- INV_TOP, the highest index of the inverse ROMs (R7, R102). -/
def invTop : Nat := 0x7A

/-- ALPHA (R101). -/
def alpha (i : Sextet) : Byte :=
  let n := i.toNat
  if n < 26 then BitVec.ofNat 8 (0x41 + n)
  else if n < 52 then BitVec.ofNat 8 (0x61 + (n - 26))
  else if n < 62 then BitVec.ofNat 8 (0x30 + (n - 52))
  else if n = 62 then 0x2B#8
  else 0x2F#8

/-- The index s with ALPHA[s] = c, where there is one (R103). -/
def indexOf (c : Byte) : Option Sextet :=
  let n := c.toNat
  if 0x41 ≤ n ∧ n ≤ 0x5A then some (BitVec.ofNat 6 (n - 0x41))
  else if 0x61 ≤ n ∧ n ≤ 0x7A then some (BitVec.ofNat 6 (n - 0x61 + 26))
  else if 0x30 ≤ n ∧ n ≤ 0x39 then some (BitVec.ofNat 6 (n - 0x30 + 52))
  else if n = 0x2B then some 62#6
  else if n = 0x2F then some 63#6
  else none

/-- An entry of an inverse ROM: 9 bits, two's complement (R100). -/
abbrev InvEntry := BitVec 9

/-- The sentinel −1 (R16, R103). -/
def sentinel : InvEntry := 0x1FF#9

/-- A look-up in an inverse ROM whose valid entries are `f s`; every other code, and every code above INV_TOP,
yields the sentinel (R102, R103). -/
def invLookup (f : InvEntry → InvEntry) (c : Byte) : InvEntry :=
  if c.toNat ≤ invTop then
    match indexOf c with
    | some s => f (s.setWidth 9)
    | none => sentinel
  else sentinel

/-- INV0[c] = s << 2 (R103). -/
def inv0 : Byte → InvEntry := invLookup fun s => s <<< 2

/-- INV1[c] = s >> 4 (R103). -/
def inv1 : Byte → InvEntry := invLookup fun s => s >>> 4

/-- INV2[c] = (s & 0xF) << 4 (R103). -/
def inv2 : Byte → InvEntry := invLookup fun s => (s &&& 0xF#9) <<< 4

/-- INV3[c] = s >> 2 (R103). -/
def inv3 : Byte → InvEntry := invLookup fun s => s >>> 2

/-- INV4[c] = (s & 0x3) << 6 (R103). -/
def inv4 : Byte → InvEntry := invLookup fun s => (s &&& 0x3#9) <<< 6

/-- INV5[c] = s (R103). -/
def inv5 : Byte → InvEntry := invLookup fun s => s

/-- The alphabet-membership test (R102). -/
def isAlpha (c : Byte) : Bool := c.toNat ≤ invTop && inv5 c != sentinel

/-- FWD0[b] = b >> 2 (R105). -/
def fwd0 (b : Byte) : Sextet := (b >>> 2).setWidth 6

/-- FWD1[b] = (b & 0x3) << 4 (R105). -/
def fwd1 (b : Byte) : Sextet := ((b &&& 0x3#8) <<< 4).setWidth 6

/-- FWD2[b] = (b & 0xF) << 2 (R105). -/
def fwd2 (b : Byte) : Sextet := ((b &&& 0xF#8) <<< 2).setWidth 6

/-- FWD3[b] = b & 0x3F (R105). -/
def fwd3 (b : Byte) : Sextet := (b &&& 0x3F#8).setWidth 6

/-- TBL_ALPHA (R120). -/
def execTblAlpha (s : State) : Result :=
  if s.argNat > 63 then .next (s.raise .invalidRange s.args.arg 3)
  else .next (s.finish .ok (zext (alpha (BitVec.ofNat 6 s.argNat))) 0 0)

/-- TBL_INV (R121): ARG is compared whole, with no truncation to 8 bits. -/
def execTblInv (s : State) : Result :=
  if s.argNat ≤ invTop ∧ inv5 (BitVec.ofNat 8 s.argNat) ≠ sentinel then
    .next (s.finish .ok ((inv5 (BitVec.ofNat 8 s.argNat)).setWidth 32) 0 0)
  else .next (s.finish .ok 0xFFFFFFFF#32 0 0)

end Sys2Proof.Machine
end

