-- ==== Sys2Proof/Machine/Packing.lean ====
section
/-! DEFINITION. The packing unit: PACK3, PACK2, PACK1 and GroupDecode (R110-R118). -/

namespace Sys2Proof.Machine

/-- Four characters, the encoded form of one group (R16). -/
structure TextGroup where
  c0 : Byte
  c1 : Byte
  c2 : Byte
  c3 : Byte
  deriving DecidableEq, Repr

/-- The characters of a group in order (R54). -/
def TextGroup.chars (g : TextGroup) : List Byte := [g.c0, g.c1, g.c2, g.c3]

/-- PACK3 (R111). -/
def pack3 (b0 b1 b2 : Byte) : TextGroup :=
  { c0 := alpha (fwd0 b0)
    c1 := alpha (fwd1 b0 + (fwd0 b1 >>> 2))
    c2 := alpha (fwd2 b1 + (fwd0 b2 >>> 4))
    c3 := alpha (fwd3 b2) }

/-- PACK2 (R112). -/
def pack2 (b0 b1 : Byte) : TextGroup := { pack3 b0 b1 0 with c3 := padCode }

/-- PACK1 (R113). -/
def pack1 (b0 : Byte) : TextGroup := { pack3 b0 0 0 with c2 := padCode, c3 := padCode }

/-- What GroupDecode returns (R114). -/
inductive GroupResult where
  | ok (bytes : Buf3) (validCount : Nat)
  | err (code : Byte) (pos : Nat)
  deriving DecidableEq, Repr

/-- The padCount of a group (R114, R115). -/
def padCount (g : TextGroup) (final : Bool) : Nat :=
  if final && g.c3 == padCode then
    if g.c2 == padCode then 2 else 1
  else 0

/-- The first data position whose character is not of the alphabet (R114, R116). -/
def firstInvalid (g : TextGroup) (p : Nat) : Option (Byte × Nat) :=
  ([(g.c0, 0), (g.c1, 1), (g.c2, 2), (g.c3, 3)].take (4 - p)).find? fun x => !isAlpha x.1

/-- GroupDecode (R114): the alphabet check position by position, then the zero-bit check (R116, R117). -/
def groupDecode (g : TextGroup) (final : Bool) : GroupResult :=
  let p := padCount g final
  match firstInvalid g p with
  | some (c, k) => .err c k
  | none =>
    if p == 2 && inv2 g.c1 != 0 then .err g.c1 1
    else if p == 1 && inv4 g.c2 != 0 then .err g.c2 2
    else
      .ok
        { b0 := (inv0 g.c0 + inv1 g.c1).setWidth 8
          b1 := if p == 2 then 0 else (inv2 g.c1 + inv3 g.c2).setWidth 8
          b2 := if 1 ≤ p then 0 else (inv4 g.c2 + inv5 g.c3).setWidth 8 }
        (3 - p)

/-- The first `v` bytes of a decoded group (R118). -/
def Buf3.take (b : Buf3) (v : Nat) : List Byte := [b.b0, b.b1, b.b2].take v

/-- Entry `i` of a holding buffer. -/
def Buf3.get (b : Buf3) (i : Nat) : Byte :=
  match i with
  | 0 => b.b0
  | 1 => b.b1
  | _ => b.b2

end Sys2Proof.Machine
end

