-- ==== Sys2Proof/Machine/Bulk.lean ====
section
/-! DEFINITION. The bulk codec commands ENCODE, DECODE, DECODE_ALLOC and VALIDATE (41_bulk_codec.md). -/

namespace Sys2Proof.Machine

/-- An error a command reports: its code and the two info words (R241). -/
structure Report where
  code : Code
  info0 : Word
  info1 : Word
  deriving DecidableEq, Repr

/-- A command ends with the error it found (R11). -/
def State.report (s : State) (r : Report) : State := s.raise r.code r.info0 r.info1

/-- CheckSrcRange (R130): the index before the length. -/
def srcRangeError (s : State) : Option Report :=
  if s.srcOff < 0 ∨ s.srcOff > s.srcLen then some ⟨.invalidRange, s.args.srcOff, 0⟩
  else if s.srcCnt < 0 ∨ s.srcOff + s.srcCnt > s.srcLen then some ⟨.invalidRange, s.args.srcCnt, 1⟩
  else none

/-- The source region (a, L) of a bulk command whose source range was checked (R133, R143). -/
def srcRegion (s : State) : Region := ⟨((s.srcBase : Int) + s.srcOff).toNat, s.srcCnt.toNat⟩

/-- ceil(L/3)·4 (R132). -/
def encodedLen (len : Nat) : Nat := (len + 2) / 3 * 4

/-- The destination region of ENCODE (R131). -/
def encodeDst (s : State) : Region := ⟨s.dstBase, encodedLen s.srcCnt.toNat⟩

/-- The checks on the regions that end every bulk check: BUS_ERROR for the destination, then REGION_OVERLAP
(R131, R140, R150). -/
def dstRegionError (s : State) (src dst : Region) : Option Report :=
  if !dst.inDmem s.params.dmemSize then some ⟨.busError, toWord dst.start, 1⟩
  else if src.overlap dst then some ⟨.regionOverlap, 0, 0⟩
  else none

/-- The first failing check of ENCODE (R131). -/
def encodeError (s : State) : Option Report :=
  match srcRangeError s with
  | some r => some r
  | none =>
    if !(srcRegion s).inDmem s.params.dmemSize then some ⟨.busError, toWord (srcRegion s).start, 0⟩
    else dstRegionError s (srcRegion s) (encodeDst s)

/-- The text of a byte sequence: PACK3 for each group, PACK2 or PACK1 for the remainder (R133). -/
def encodeText : List Byte → List Byte
  | [] => []
  | [b0] => (pack1 b0).chars
  | [b0, b1] => (pack2 b0 b1).chars
  | b0 :: b1 :: b2 :: rest => (pack3 b0 b1 b2).chars ++ encodeText rest

/-- The bytes of the source region. -/
def srcBytes (s : State) : List Byte := Memory.readBytes s.dmem (srcRegion s).start (srcRegion s).len

/-- ENCODE (R133). The source region is read whole before the destination is written: the two do not overlap (R134). -/
def execEncode (s : State) : Result :=
  match encodeError s with
  | some r => .next (s.report r)
  | none =>
    .next ((s.store (encodeDst s).start (encodeText (srcBytes s))).finish .ok (toWord (encodeDst s).len) 0 0)

/-- RegionPadCount(a, L) (R130, R141). -/
def regionPadCount (m : Memory) (r : Region) : Nat :=
  if r.len = 0 then 0
  else if Memory.read m (r.start + r.len - 1) ≠ padCode then 0
  else if Memory.read m (r.start + r.len - 2) = padCode then 2
  else 1

/-- The decoded length n = L·3/4 − padCount (R142). -/
def decodedLen (s : State) : Nat := (srcRegion s).len * 3 / 4 - regionPadCount s.dmem (srcRegion s)

/-- The destination region of DECODE (R140 step 6). -/
def decodeDst (s : State) : Region := ⟨((s.dstBase : Int) + s.dstOff).toNat, decodedLen s⟩

/-- The destination region of DECODE_ALLOC (R150). -/
def decodeAllocDst (s : State) : Region := ⟨s.dstBase, decodedLen s⟩

/-- SrcCnt is not a multiple of 4 (R140 step 1). -/
def srcLengthError (s : State) : Option Report :=
  if s.srcCnt % 4 ≠ 0 then some ⟨.invalidLength, s.args.srcCnt, 0⟩ else none

/-- The destination offset check of DECODE (R140 step 3). -/
def dstOffError (s : State) : Option Report :=
  if s.dstOff < 0 ∨ s.dstOff > s.dstLen then some ⟨.invalidRange, s.args.dstOff, 2⟩ else none

/-- DstLen − DstOff, the capacity DECODE has (R143). -/
def capacity (s : State) : Nat := ((s.dstLen : Int) - s.dstOff).toNat

/-- The capacity check of DECODE (R140 step 5). -/
def capacityError (s : State) : Option Report :=
  if capacity s < decodedLen s then some ⟨.bufferTooSmall, toWord (decodedLen s), toWord (capacity s)⟩ else none

/-- The source region is not in DMEM (R140 step 4). -/
def srcBusError (s : State) : Option Report :=
  if !(srcRegion s).inDmem s.params.dmemSize then some ⟨.busError, toWord (srcRegion s).start, 0⟩ else none

/-- The first failing one of steps 1 to 7 of DECODE, in the order of R140. -/
def decodeError (s : State) : Option Report :=
  [ srcLengthError s, srcRangeError s, dstOffError s, srcBusError s, capacityError s,
    dstRegionError s (srcRegion s) (decodeDst s) ].findSome? id

/-- The first failing check of DECODE_ALLOC before the characters, in the order of R150. -/
def decodeAllocError (s : State) : Option Report :=
  [ srcLengthError s, srcRangeError s, srcBusError s,
    dstRegionError s (srcRegion s) (decodeAllocDst s) ].findSome? id

/-- The outcome of decoding a text: its bytes, or the first offending character and its index (R143). -/
inductive TextResult where
  | ok (bytes : List Byte)
  | err (code : Byte) (index : Nat)
  deriving DecidableEq, Repr

/-- The group loop of DECODE (R143) from character `at` of the region on; only the last group is final. Characters
left over after the last whole group are none, the length being a multiple of 4 (R140 step 1). -/
def decodeText (index : Nat) : List Byte → TextResult
  | c0 :: c1 :: c2 :: c3 :: rest =>
    match groupDecode ⟨c0, c1, c2, c3⟩ rest.isEmpty with
    | .err code pos => .err code (index + pos)
    | .ok bytes v =>
      match decodeText (index + 4) rest with
      | .err code pos => .err code pos
      | .ok more => .ok (bytes.take v ++ more)
  | _ => .ok []

/-- The group loop and completion shared by DECODE and DECODE_ALLOC (R143, R150): with an invalid character the
destination region holds free values (R144). -/
def decodeInto (s : State) (dst : Region) : Result :=
  match decodeText 0 (srcBytes s) with
  | .err code index => .next ((s.scramble dst).raise .invalidCharacter (zext code) (toWord index))
  | .ok bytes => .next ((s.store dst.start bytes).finish .ok (toWord dst.len) 0 0)

/-- DECODE (R143). -/
def execDecode (s : State) : Result :=
  match decodeError s with
  | some r => .next (s.report r)
  | none => decodeInto s (decodeDst s)

/-- DECODE_ALLOC (R150). -/
def execDecodeAlloc (s : State) : Result :=
  match decodeAllocError s with
  | some r => .next (s.report r)
  | none => decodeInto s (decodeAllocDst s)

/-- The validity predicate of VALIDATE (R160). -/
def validText (s : State) : Bool :=
  if s.srcCnt = 0 ∨ s.srcCnt % 4 ≠ 0 then false
  else if s.srcOff < 0 ∨ s.srcOff > s.srcLen ∨ s.srcCnt < 0 ∨ s.srcOff + s.srcCnt > s.srcLen then false
  else if !(srcRegion s).inDmem s.params.dmemSize then false
  else
    match decodeText 0 (srcBytes s) with
    | .ok _ => true
    | .err _ _ => false

/-- VALIDATE (R160). -/
def execValidate (s : State) : Result :=
  .next (s.finish .ok (if validText s then 1 else 0) 0 0)

/-- The bytes of the region that DMEM has: those at an address below DMEM_SIZE (R50, R56). -/
def Region.clip (r : Region) (size : Nat) : Region :=
  if r.start < size then ⟨r.start, min r.len (size - r.start)⟩ else Region.none

/-- The bytes of the source region of a running bulk command, which the host must not write meanwhile (R62), also
where a part of the region is not in DMEM and the command will report BUS_ERROR. A command that will report
INVALID_RANGE has no source region here (DEDUCED, assumption 15). -/
def guardedSrc (i : Instr) (s : State) : Region :=
  match i with
  | .encode | .decode | .decodeAlloc | .validate =>
    if (srcRangeError s).isNone then (srcRegion s).clip s.params.dmemSize else Region.none
  | .nop | .tblAlpha | .tblInv | .encOpen | .encWrite | .encClose | .decOpen | .decRead | .decSkip | .decAvail
  | .decClose => Region.none

/-- The bytes of the destination region of a running bulk command, which the host must neither read nor write
meanwhile (R62). It is computed at acceptance (R61), and there is none where an earlier check leaves it undefined
(DEDUCED, assumption 15). Where it shares bytes with the source region (REGION_OVERLAP to come) and the duty is
broken, R58 would keep the shared bytes and R62 frees them: they are freed (DESIGN CHOICE, assumption 15). -/
def guardedDst (i : Instr) (s : State) : Region :=
  match i with
  | .encode => if (srcRangeError s).isNone then (encodeDst s).clip s.params.dmemSize else Region.none
  | .decode =>
    if (([srcLengthError s, srcRangeError s, dstOffError s, srcBusError s]).findSome? id).isNone then
      (decodeDst s).clip s.params.dmemSize
    else Region.none
  | .decodeAlloc =>
    if (([srcLengthError s, srcRangeError s, srcBusError s]).findSome? id).isNone then
      (decodeAllocDst s).clip s.params.dmemSize
    else Region.none
  | .nop | .validate | .tblAlpha | .tblInv | .encOpen | .encWrite | .encClose | .decOpen | .decRead | .decSkip
  | .decAvail | .decClose => Region.none

end Sys2Proof.Machine
end

