-- ==== Sys2Proof/Machine/Control.lean ====
section
/-! DEFINITION. NOP and the illegal command words (R234, R235). -/

namespace Sys2Proof.Machine

/-- NOP (R234). -/
def execNop (s : State) : Result := .next (s.finish .ok 0 0 0)

/-- An illegal command word w completes with ILLEGAL_COMMAND, its only effect (R74, R235). -/
def illegalCommand (w : Word) (s : State) : Result := .next (s.raise .illegalCommand w 0)

end Sys2Proof.Machine
end

