-- ==== Sys2Proof/Machine/StreamDecoder.lean ====
section
/-! DEFINITION. The streaming decoder commands DEC_OPEN, DEC_READ, DEC_SKIP, DEC_AVAIL and DEC_CLOSE (43_stream_decoder.md). -/

namespace Sys2Proof.Machine

/-- DecFail (R193): the decoder enters FAILED, its buffer is emptied, and the command ends. -/
def State.decFail (s : State) (code : Code) (info0 info1 : Word) : State :=
  State.raise { s with dec := ⟨.failed, 0, 0, .zero, ⟨code, info0, info1⟩⟩ } code info0 info1

/-- The decoder takes a mode and its buffer is emptied (R194, R210, R215). -/
def State.decEmptyIn (s : State) (mode : DecMode) : State :=
  { s with dec := ⟨mode, 0, 0, .zero, s.dec.latch⟩ }

/-- A group is loaded: BUF, VALID and CURSOR (R194, R198). -/
def State.decLoad (s : State) (bytes : Buf3) (valid cursor : Nat) : State :=
  { s with dec := { s.dec with buf := bytes, valid := Fin.ofNat 4 valid, cursor := Fin.ofNat 4 cursor } }

/-- EOF at the first character of a group: END_OF_INPUT for DEC_READ (R200), a short count for DEC_SKIP (R211). -/
def pullEof (goal : PullFor) (s : State) : State :=
  match goal with
  | .read => (s.decEmptyIn .eoi).finish .endOfInput 0xFFFFFFFF#32 0 0
  | .skip total _ => (s.decEmptyIn .eoi).finish .ok (toWord total) 0 0

/-- PullGroup (R194), and what DEC_READ and step 3 of DEC_SKIP do with each group (R200, R204). The first
argument is the source's answers to SrcRead still to come; the SrcRead it answers is outstanding; `got` are the
characters of the group received so far. -/
def pullOn : List (Nat × ReadAnswer) → List Byte → PullFor → State → State
  | (0, .char c) :: later, got, goal, s =>
    match got with
    | [c0, c1, c2] =>
      match groupDecode ⟨c0, c1, c2, c⟩ true with
      | .err code pos => (s.withReadAnswers later).decFail .invalidCharacter (zext code) (toWord pos)
      | .ok bytes v =>
        match goal with
        | .read => ((s.withReadAnswers later).decLoad bytes v 1).finish .ok (zext bytes.b0) 0 0
        | .skip total left =>
          if left ≤ v then
            ((s.withReadAnswers later).decLoad bytes v left).finish .ok (toWord (total + left)) 0 0
          else pullOn later [] (.skip (total + v) (left - v)) ((s.decLoad bytes v v).issueSource .read)
    | _ => pullOn later (got ++ [c]) goal (s.issueSource .read)
  | (0, .eof) :: later, got, goal, s =>
    if got.length = 0 then pullEof goal (s.withReadAnswers later)
    else (s.withReadAnswers later).decFail .unexpectedEndOfInput (toWord got.length) 0
  | (0, .err info) :: later, _, _, s => (s.withReadAnswers later).decFail .sourceError info 0
  | later, got, goal, s => (s.withReadAnswers later).waitIn (.pulling got goal)

/-- Pull a group: the first SrcRead is issued (R194). -/
def pullGroup (goal : PullFor) (s : State) : State :=
  pullOn s.source.readAnswers [] goal (s.issueSource .read)

/-- DEC_OPEN (R195). -/
def execDecOpen (s : State) : Result := .next (State.finish { s with dec := .fresh } .ok 0 0 0)

/-- DEC_READ in ACTIVE: a buffered byte, or the first byte of the next group (R200). -/
def decReadActive (s : State) : State :=
  if s.dec.cursor < s.dec.valid then
    State.finish { s with dec := { s.dec with cursor := s.dec.cursor + 1 } } .ok
      (zext (s.dec.buf.get s.dec.cursor.val)) 0 0
  else pullGroup .read s

/-- DEC_READ (R196, R200). -/
def execDecRead (s : State) : Result :=
  match s.dec.mode with
  | .closed => .next (s.raise .streamClosed 0 0)
  | .failed => .next (s.reReport s.dec.latch)
  | .eoi => .next (s.finish .endOfInput 0xFFFFFFFF#32 0 0)
  | .active => .next (decReadActive s)

/-- Step 3 of DEC_SKIP: while bytes are still to be skipped, pull a group (R204, R211). -/
def skipRest (total left : Nat) (s : State) : State :=
  if left = 0 then s.finish .ok (toWord total) 0 0 else pullGroup (.skip total left) s

/-- The source's answer to the fast path's SrcSkip(chars) (R204, R207, R209, R210). -/
def skipAnswered (chars total left : Nat) (a : SkipAnswer) (s : State) : Result :=
  match a with
  | .err info => .next (s.decFail .sourceError info 0)
  | .skipped n =>
    let k := n.toNat
    if k > chars then .refused (.skipAnswerTooLarge chars k)
    else if k % 4 ≠ 0 then .next (s.decFail .unexpectedEndOfInput (toWord (k % 4)) 0)
    else if k < chars then .next ((s.decEmptyIn .eoi).finish .ok (toWord (total + k / 4 * 3)) 0 0)
    else .next (skipRest (total + k / 4 * 3) (left - k / 4 * 3) s)

/-- Wait for the answer to the outstanding SrcSkip (R190). -/
def awaitSkip (chars total left : Nat) (s : State) : Result :=
  match readyAnswer s.source.skipAnswers with
  | some (a, rest) => skipAnswered chars total left a (s.withSkipAnswers rest)
  | none => .next (s.waitIn (.skipping chars total left))

/-- Steps 2 and 3 of DEC_SKIP: the fast path skips whole groups on the source (R204, R207). -/
def skipGroups (total left : Nat) (s : State) : Result :=
  if left / 3 > 0 then
    awaitSkip (4 * (left / 3)) total left (s.issueSource (.skip (4 * (left / 3))))
  else .next (skipRest total left s)

/-- The unread buffered bytes, VALID − CURSOR (R45). -/
def Decoder.unread (d : Decoder) : Nat := d.valid.val - d.cursor.val

/-- DEC_SKIP of n bytes in ACTIVE: step 1 takes buffered bytes (R204, R206). -/
def decSkipActive (n : Nat) (s : State) : Result :=
  let k := min n s.dec.unread
  let t := { s with dec := { s.dec with cursor := Fin.ofNat 4 (s.dec.cursor.val + k) } }
  if n - k = 0 then .next (State.finish t .ok (toWord k) 0 0) else skipGroups k (n - k) t

/-- DEC_SKIP (R196, R204, R205). -/
def execDecSkip (s : State) : Result :=
  match s.dec.mode with
  | .closed => .next (s.raise .streamClosed 0 0)
  | .failed => .next (s.reReport s.dec.latch)
  | .eoi => if s.argInt < 0 then .next (s.finish .cannotSkip 0 0 0) else .next (s.finish .ok 0 0 0)
  | .active => if s.argInt < 0 then .next (s.finish .cannotSkip 0 0 0) else decSkipActive s.argInt.toNat s

/-- The source's answer to SrcAvail ends DEC_AVAIL (R213). -/
def availAnswered (a : AvailAnswer) (s : State) : State :=
  match a with
  | .count n => s.finish .ok (toWord (s.dec.unread + n.toNat / 4 * 3)) 0 0
  | .err info => s.decFail .sourceError info 0

/-- Wait for the answer to the outstanding SrcAvail (R190). -/
def awaitAvail (s : State) : State :=
  match readyAnswer s.source.availAnswers with
  | some (a, rest) => availAnswered a (s.withAvailAnswers rest)
  | none => s.waitIn .availing

/-- DEC_AVAIL (R196, R213). -/
def execDecAvail (s : State) : Result :=
  match s.dec.mode with
  | .closed => .next (s.raise .streamClosed 0 0)
  | .failed => .next (s.reReport s.dec.latch)
  | .eoi => .next (s.finish .ok 0 0 0)
  | .active => .next (awaitAvail (s.issueSource .avail))

/-- The source's answer to SrcClose ends DEC_CLOSE (R215). -/
def sourceClosed (a : Answer) (s : State) : State :=
  match a with
  | .ack => (s.decEmptyIn .closed).finish .ok 0 0 0
  | .err info => s.decFail .sourceError info 0

/-- Wait for the answer to the outstanding SrcClose (R190). -/
def awaitSourceClose (s : State) : State :=
  match readyAnswer s.source.closeAnswers with
  | some (a, rest) => sourceClosed a (s.withSrcCloseAnswers rest)
  | none => s.waitIn .closingSource

/-- DEC_CLOSE (R215). -/
def execDecClose (s : State) : Result :=
  match s.dec.mode with
  | .closed => .next (s.finish .ok 0 0 0)
  | .failed => .next (s.reReport s.dec.latch)
  | .eoi => .next (awaitSourceClose (s.issueSource .close))
  | .active => .next (awaitSourceClose (s.issueSource .close))

end Sys2Proof.Machine
end

