-- ==== Sys2Proof/Machine/StreamEncoder.lean ====
section
/-! DEFINITION. The streaming encoder commands ENC_OPEN, ENC_WRITE and ENC_CLOSE (42_stream_encoder.md). -/

namespace Sys2Proof.Machine

/-- EncFail (R175): the encoder enters FAILED, its pending bytes are lost, and the command ends. -/
def State.encFail (s : State) (info : Word) : State :=
  State.raise { s with enc := ⟨.failed, 0, .zero, ⟨.sinkError, info, 0⟩⟩ } .sinkError info 0

/-- FILL and HB are emptied (R173, R176). -/
def State.encEmpty (s : State) : State := { s with enc := { s.enc with fill := 0, hb := .zero } }

/-- The sink's answer to SinkClose ends ENC_CLOSE (R176). -/
def sinkClosed (sent : Nat) (a : Answer) (s : State) : State :=
  match a with
  | .ack => State.finish { s with enc := { s.enc with mode := .closed } } .ok (toWord sent) 0 0
  | .err info => s.encFail info

/-- Wait for the answer to the outstanding SinkClose (R170). -/
def awaitSinkClose (sent : Nat) (s : State) : State :=
  match readyAnswer s.sink.closeAnswers with
  | some (a, rest) => sinkClosed sent a (s.withSinkCloseAnswers rest)
  | none => s.waitIn (.closingSink sent)

/-- SinkClose() after `sent` characters (R176). -/
def closeSink (sent : Nat) (s : State) : State := awaitSinkClose sent s.encEmpty.issueSinkClose

/-- The group has been emitted: ENC_WRITE completes (R173), ENC_CLOSE goes on to close the sink (R176). -/
def emitted (goal : EmitFor) (s : State) : State :=
  match goal with
  | .write => s.encEmpty.finish .ok 4 0 0
  | .close => closeSink 4 s

/-- EncEmit of the characters still to offer (R174): one SinkPut at a time, each answered before the next. -/
def emit (goal : EmitFor) : List Byte → State → State
  | [], s => emitted goal s
  | c :: rest, s =>
    match readyAnswer s.sink.putAnswers with
    | some (.ack, later) => emit goal rest (((s.issuePut c).withPutAnswers later).sinkAccepts c)
    | some (.err info, later) => ((s.issuePut c).withPutAnswers later).encFail info
    | none => (s.issuePut c).waitIn (.putting c rest goal)

/-- Wait for the answer to the outstanding SinkPut(c), then offer the rest (R174). -/
def awaitPut (goal : EmitFor) (c : Byte) (rest : List Byte) (s : State) : State :=
  match readyAnswer s.sink.putAnswers with
  | some (.ack, later) => emit goal rest ((s.withPutAnswers later).sinkAccepts c)
  | some (.err info, later) => (s.withPutAnswers later).encFail info
  | none => s

/-- ENC_OPEN (R172). -/
def execEncOpen (s : State) : Result := .next (State.finish { s with enc := .fresh } .ok 0 0 0)

/-- ENC_WRITE in OPEN: HB[FILL] takes the byte, and a full group is emitted (R173). -/
def encAppend (s : State) : Result :=
  let hb := s.enc.hb
  match s.enc.fill with
  | 0 => .next (State.finish { s with enc := { s.enc with fill := 1, hb := { hb with b0 := s.argByte } } } .ok 0 0 0)
  | 1 => .next (State.finish { s with enc := { s.enc with fill := 2, hb := { hb with b1 := s.argByte } } } .ok 0 0 0)
  | 2 =>
    .next (emit .write (pack3 hb.b0 hb.b1 s.argByte).chars
      { s with enc := { s.enc with fill := 3, hb := { hb with b2 := s.argByte } } })
  | 3 => .fault .encoderBufferFull

/-- ENC_WRITE (R173). -/
def execEncWrite (s : State) : Result :=
  match s.enc.mode with
  | .closed => .next (s.raise .streamClosed 0 0)
  | .failed => .next (s.reReport s.enc.latch)
  | .opened => encAppend s

/-- ENC_CLOSE in OPEN: the pending bytes are flushed, then the sink is closed (R176). -/
def encFlush (s : State) : State :=
  match s.enc.fill with
  | 1 => emit .close (pack1 s.enc.hb.b0).chars s
  | 2 => emit .close (pack2 s.enc.hb.b0 s.enc.hb.b1).chars s
  | 0 => closeSink 0 s
  | 3 => closeSink 0 s

/-- ENC_CLOSE (R176, R177). -/
def execEncClose (s : State) : Result :=
  match s.enc.mode with
  | .closed => .next (s.finish .ok 0 0 0)
  | .failed => .next (s.reReport s.enc.latch)
  | .opened => .next (encFlush s)

end Sys2Proof.Machine
end

