-- ==== Sys2Proof/Machine/Dispatch.lean ====
section
/-! DEFINITION. One arm per command: the execution of an accepted command (R72, R230). -/

namespace Sys2Proof.Machine

def exec (i : Instr) (s : State) : Host.Outcome State Fault Refusal :=
  match i with
  | .nop => Sys2Proof.Machine.execNop s
  | .encode => Sys2Proof.Machine.execEncode s
  | .decode => Sys2Proof.Machine.execDecode s
  | .decodeAlloc => Sys2Proof.Machine.execDecodeAlloc s
  | .validate => Sys2Proof.Machine.execValidate s
  | .tblAlpha => Sys2Proof.Machine.execTblAlpha s
  | .tblInv => Sys2Proof.Machine.execTblInv s
  | .encOpen => Sys2Proof.Machine.execEncOpen s
  | .encWrite => Sys2Proof.Machine.execEncWrite s
  | .encClose => Sys2Proof.Machine.execEncClose s
  | .decOpen => Sys2Proof.Machine.execDecOpen s
  | .decRead => Sys2Proof.Machine.execDecRead s
  | .decSkip => Sys2Proof.Machine.execDecSkip s
  | .decAvail => Sys2Proof.Machine.execDecAvail s
  | .decClose => Sys2Proof.Machine.execDecClose s

end Sys2Proof.Machine
end

