-- ==== Sys2Proof/Machine/HostPort.lean ====
section
/-! DEFINITION. The host port: reads and writes of the CSR window and of DMEM, and the reset input (R23-R36, R53, R231, R270-R272, R280). -/

namespace Sys2Proof.Machine

/-- ID reads this constant (R24). -/
def idWord : Word := 0x42363401#32

/-- A value read while BUSY = 1 (R280): a free word, its reserved bits 0. -/
def unspecifiedRead (mask : Word) (s : State) : Word × State :=
  (Config.freeWord s.draws &&& mask, { s with draws := s.draws + 1 })

/-- A read of a completion or state register: exact while IDLE, unspecified while BUSY (R280). -/
def readWhenIdle (value mask : Word) (s : State) : Word × State :=
  if s.busy then unspecifiedRead mask s else (value, s)

/-- A read of STATUS (R26): while BUSY, the CODE field is unspecified and the flags are exact (R280). -/
def readStatus (s : State) : Word × State :=
  if s.busy then
    (statusOf true s.done s.ovr ((Config.freeWord s.draws).extractLsb' 0 4), { s with draws := s.draws + 1 })
  else (s.statusWord, s)

/-- A host read of a CSR (R23-R34). -/
def readCsr (n : CsrName) (s : State) : Word × State :=
  match n with
  | .id => (idWord, s)
  | .cmd => (0, s)
  | .status => readStatus s
  | .result => readWhenIdle s.result 0xFFFFFFFF#32 s
  | .info0 => readWhenIdle s.info0 0xFFFFFFFF#32 s
  | .info1 => readWhenIdle s.info1 0xFFFFFFFF#32 s
  | .srcBase => (s.args.srcBase, s)
  | .srcLen => (s.args.srcLen, s)
  | .srcOff => (s.args.srcOff, s)
  | .srcCnt => (s.args.srcCnt, s)
  | .dstBase => (s.args.dstBase, s)
  | .dstLen => (s.args.dstLen, s)
  | .dstOff => (s.args.dstOff, s)
  | .arg => (s.args.arg, s)
  | .encState => readWhenIdle s.enc.stateWord 0x00FFFFFF#32 s
  | .decState => readWhenIdle s.dec.stateWord 0x00000F3F#32 s
  | .decBuf => readWhenIdle s.dec.bufWord 0x00FFFFFF#32 s

/-- A host read at an offset of the window: a reserved offset reads 0 (R35). -/
def readOffset (off : Nat) (s : State) : Word × State :=
  match csrAt off with
  | some n => readCsr n s
  | none => (0, s)

/-- What a read returned reaches the host. -/
def State.reply (s : State) (r : HostReply) : State := { s with hostLog := s.hostLog ++ [r] }

/-- A host read of the CSR window. An access that is not an aligned 32-bit one is refused (R53); one outside the
window is none of B64DP's. -/
def hostCsrRead (addr : Nat) (width : AccessWidth) (s : State) : Result :=
  if !touchesWindow s.params addr width then .next s
  else if !alignedAccess s.params addr width then .refused (.csrAccessShape addr width)
  else
    let r := readOffset (addr - s.params.csrBase) s
    .next (r.2.reply (.csr (addr - s.params.csrBase) r.1))

/-- The argument registers with one of them written; the other CSRs are not RW (R23). -/
def Args.write (a : Args) (n : CsrName) (v : Word) : Option Args :=
  match n with
  | .srcBase => some { a with srcBase := v }
  | .srcLen => some { a with srcLen := v }
  | .srcOff => some { a with srcOff := v }
  | .srcCnt => some { a with srcCnt := v }
  | .dstBase => some { a with dstBase := v }
  | .dstLen => some { a with dstLen := v }
  | .dstOff => some { a with dstOff := v }
  | .arg => some { a with arg := v }
  | .id | .cmd | .status | .result | .info0 | .info1 | .encState | .decState | .decBuf => none

/-- A host write to a register other than CMD (R23, R231): an RW register takes the value while IDLE; while BUSY the
write is ignored and sets OVR; a write to any other register or a reserved offset is ignored. -/
def writeRegister (n : Option CsrName) (v : Word) (s : State) : State :=
  match n.bind fun n => s.args.write n v with
  | some args => if s.busy then { s with ovr := true } else { s with args := args }
  | none => s

/-- The host touches the regions of the running bulk command (R62). -/
def State.breakDuty (s : State) (touches : Region → Region → Bool) : State :=
  match s.phase with
  | .accepted n src dst broken => { s with phase := .accepted n src dst (broken || touches src dst) }
  | _ => s

/-- The destination region of the running bulk command, which is no one's to read (R62). -/
def State.inFlight (s : State) : Region :=
  match s.phase with
  | .accepted _ _ dst _ => dst
  | _ => Region.none

/-- A host write of one DMEM byte (R50, R62). -/
def hostDmemWrite (addr : Nat) (v : Byte) (s : State) : Result :=
  if addr < s.params.dmemSize then
    .next (State.breakDuty { s with dmem := Memory.write s.dmem addr v } fun src dst => src.contains addr || dst.contains addr)
  else .fault (.noSuchDmemAddress addr)

/-- A host read of one DMEM byte (R50): inside the destination region of a running command it reads a free value (R62). -/
def hostDmemRead (addr : Nat) (s : State) : Result :=
  if addr < s.params.dmemSize then
    if s.inFlight.contains addr then
      .next (State.reply (State.breakDuty { s with draws := s.draws + 1 } fun _ dst => dst.contains addr)
        (.dmem addr (Config.freeByte s.draws)))
    else .next (s.reply (.dmem addr (Memory.read s.dmem addr)))
  else .fault (.noSuchDmemAddress addr)

/-- Reset (R270, R272): a running command is abandoned without completion, its destination region holds free values;
DMEM is not reset otherwise, and what the agents outside do, and have seen, stays theirs. Where the destination shares
bytes with the source (REGION_OVERLAP to come), R58 would keep the shared bytes and R272 frees them: they are freed
(DESIGN CHOICE, assumption 12). A command has no destination region here where a check before it leaves it undefined
(DEDUCED, assumptions 12 and 15). -/
def resetInput (s : State) : State :=
  let t := s.scramble s.inFlight
  { State.reset with
    params := t.params
    dmem := t.dmem
    sink := t.sink
    source := t.source
    inputs := t.inputs
    latency := t.latency
    hostLog := t.hostLog
    draws := t.draws }

end Sys2Proof.Machine
end

