-- ==== Sys2Proof/Machine/Sequencer.lean ====
section
/-! DEFINITION. The command engine between steps: acceptance, execution, waiting for a port, and the inputs of the outside world (R22, R230, R231, R233, R283). -/

namespace Sys2Proof.Machine

/-- Execute a latched command word (R230): the row it selects, or R235. -/
def runCommand (w : Word) (s : State) : Result :=
  match decode w with
  | .ok i => exec i s
  | .error _ => illegalCommand w s

/-- The bytes of DMEM the host must not write while the word w runs (R62): those its command guards. An illegal word
guards none, since it touches no DMEM (R74). -/
def wordSrc (w : Word) (s : State) : Region :=
  match decode w with
  | .ok i => guardedSrc i s
  | .error _ => Region.none

/-- The bytes of DMEM the host must neither read nor write while the word w runs (R62). -/
def wordDst (w : Word) (s : State) : Region :=
  match decode w with
  | .ok i => guardedDst i s
  | .error _ => Region.none

/-- A host write of w to CMD while IDLE (R230). A word, legal or illegal, takes effect in this step, or `n` steps
later, BUSY meanwhile, when the latency drawn for it is n (R285, R286; assumption 4). -/
def startCommand (w : Word) (s : State) : Result :=
  let t := s.accept w
  match s.latency with
  | [] => runCommand w t
  | 0 :: later => runCommand w { t with latency := later }
  | (n + 1) :: later =>
    .next { t with latency := later, phase := .accepted (n + 1) (wordSrc w s) (wordDst w s) false }

/-- A host write to CMD (R25): accepted while IDLE, ignored with OVR set while BUSY (R231). -/
def writeCmd (w : Word) (s : State) : Result :=
  if s.busy then .next { s with ovr := true } else startCommand w s

/-- A host write at an offset of the window (R23). -/
def writeOffset (off : Nat) (v : Word) (s : State) : Result :=
  match csrAt off with
  | some .cmd => writeCmd v s
  | n => .next (writeRegister n v s)

/-- A host write of the CSR window: refused unless it is an aligned 32-bit one (R53). -/
def hostCsrWrite (addr : Nat) (width : AccessWidth) (v : Word) (s : State) : Result :=
  if !touchesWindow s.params addr width then .next s
  else if !alignedAccess s.params addr width then .refused (.csrAccessShape addr width)
  else writeOffset (addr - s.params.csrBase) v s

/-- One turn of the host's `wait` loop (R77): a read of STATUS, and the loop stays next while BUSY reads 1. -/
def hostWait (s : State) : State :=
  let r := readStatus s
  let t := r.2.reply (.csr (csrOffset .status) r.1)
  if s.busy then { t with inputs := .wait :: t.inputs } else t

/-- One input of the outside world, taken off the list of inputs already. -/
def takeInput (i : Input) (s : State) : Result :=
  match i with
  | .csrWrite addr width v => hostCsrWrite addr width v s
  | .csrRead addr width => hostCsrRead addr width s
  | .dmemWrite addr v => hostDmemWrite addr v s
  | .dmemRead addr => hostDmemRead addr s
  | .wait => .next (hostWait s)
  | .reset => .next (resetInput s)

/-- The command that was accepted some steps ago takes its effects (R61), or completes with unspecified values when
the host broke its duty (R62). -/
def runAccepted (dst : Region) (broken : Bool) (s : State) : Result :=
  if broken then .next (s.finishUnspecified dst)
  else
    match s.cmdWord with
    | some w => runCommand w { s with phase := .running }
    | none => .next s

/-- One step passes for the engine: a latency counts down, or the agent it waits for comes one step nearer to its
answer, and gives it (R15, R283). -/
def tick (s : State) : Result :=
  match s.phase with
  | .idle => .next s
  | .running => .next s
  | .accepted n src dst broken =>
    if n ≤ 1 then runAccepted dst broken s else .next { s with phase := .accepted (n - 1) src dst broken }
  | .putting c rest goal => .next (awaitPut goal c rest (s.withPutAnswers (elapse s.sink.putAnswers)))
  | .closingSink sent => .next (awaitSinkClose sent (s.withSinkCloseAnswers (elapse s.sink.closeAnswers)))
  | .pulling got goal => .next (pullOn (elapse s.source.readAnswers) got goal s)
  | .skipping chars total left => awaitSkip chars total left (s.withSkipAnswers (elapse s.source.skipAnswers))
  | .availing => .next (awaitAvail (s.withAvailAnswers (elapse s.source.availAnswers)))
  | .closingSource => .next (awaitSourceClose (s.withSrcCloseAnswers (elapse s.source.closeAnswers)))

/-- The next input, if there is one, is handled. -/
def handleInput (s : State) : Result :=
  match s.inputs with
  | [] => .next s
  | i :: rest => takeInput i { s with inputs := rest }

/-- The engine moves on after an input when it was executing a command before it. -/
def advance (wasBusy : Bool) (r : Result) : Result :=
  match r with
  | .next t => if wasBusy then tick t else .next t
  | .fault f => .fault f
  | .refused f => .refused f

/-- The host writes a command word to CMD next, at the reference form of the access. -/
def cmdWrite (p : Config.Params) (w : Word) : Input := .csrWrite (p.csrBase + csrOffset .cmd) .word w

/-- The command word that a number of the opcode table's numbering stands for: its low `nbits` bits. -/
def fetchWord (nbits w : Nat) : Word := BitVec.ofNat 32 (w % 2 ^ nbits)

/-- The host's next input is a write of that word to CMD, to an IDLE engine whose command takes effect at once. -/
def State.loadCommand (s : State) (w : Word) : State :=
  { s with phase := .idle, cmdWord := none, latency := [], inputs := cmdWrite s.params w :: s.inputs }

end Sys2Proof.Machine
end

