-- ==== Sys2Proof/Machine/Step.lean ====
section
/-! DEFINITION. One step of the machine: the next input of the outside world, then the command engine (R15, R22). -/

namespace Sys2Proof.Machine

/-- One step: the host or the platform acts, then a command that was running moves on. With no input and no
running command the machine waits as it is (R270: "it waits for a CMD write"). -/
def step (s : State) : Host.Outcome State Fault Refusal := advance s.busy (handleInput s)

/-- The state whose next step takes the command word from the host (assumption 6). -/
def State.withFetchWord (s : State) (nbits w : Nat) : State := s.loadCommand (fetchWord nbits w)

end Sys2Proof.Machine
end

