-- ==== Sys2Proof/Machine/Script.lean ====
section
/-! DEFINITION. Host command scripts: the statements of R76 and the pseudo-instructions of R77 as host inputs. -/

namespace Sys2Proof.Machine

/-- An immediate as its 32-bit two's-complement value (R76). One that does not fit 32 bits, of which R76 says
nothing, stands for its value mod 2^32 (DESIGN CHOICE, assumption 18). -/
def immWord (imm : Int) : Word := BitVec.ofInt 32 imm

/-- `csrw NAME, imm` (R76). -/
def csrw (p : Config.Params) (n : CsrName) (imm : Int) : Input :=
  .csrWrite (p.csrBase + csrOffset n) .word (immWord imm)

/-- `csrr NAME` (R76). -/
def csrr (p : Config.Params) (n : CsrName) : Input := .csrRead (p.csrBase + csrOffset n) .word

/-- The inputs a script line stands for (R76, R77). -/
def ScriptLine.inputs (p : Config.Params) : ScriptLine → List Input
  | .csrw n imm => [csrw p n imm]
  | .csrr n => [csrr p n]
  | .cmd i => [cmdWrite p (encode i)]
  | .wait => [.wait]
  | .run i => [cmdWrite p (encode i), .wait]
  | .b64write imm => [csrw p .arg imm, cmdWrite p (encode .encWrite), .wait]
  | .b64skip imm => [csrw p .arg imm, cmdWrite p (encode .decSkip), .wait]
  | .b64src base len off cnt => [csrw p .srcBase base, csrw p .srcLen len, csrw p .srcOff off, csrw p .srcCnt cnt]
  | .b64dst base len off => [csrw p .dstBase base, csrw p .dstLen len, csrw p .dstOff off]
  | .dmemw a v => [.dmemWrite a v]
  | .dmemr a => [.dmemRead a]

/-- The inputs of a whole script (R76). -/
def scriptInputs (p : Config.Params) (script : List ScriptLine) : List Input :=
  (script.map (ScriptLine.inputs p)).flatten

/-- A program comes to run by the host's script standing in the list of inputs (assumption 6). -/
def State.withScript (s : State) (script : List ScriptLine) : State :=
  { s with inputs := scriptInputs s.params script }

end Sys2Proof.Machine
end

