-- ==== Sys2Proof/Safety.lean ====
section
/-! DEFINITION. What counts as a good state and a safe run: the invariants of R41 and R45, the canonical memory, the state of a waiting engine (R22). -/

namespace Sys2Proof.Machine

/-- The encoder's invariants between commands (R41): FILL ≤ 2, HB[i] = 0 for i ≥ FILL, FILL = 0 unless OPEN. -/
def Encoder.wf (e : Encoder) : Bool :=
  e.fill.val ≤ 2 && (e.fill.val == 0 || e.mode == .opened) && (1 ≤ e.fill.val || e.hb.b0 == 0) &&
    (2 ≤ e.fill.val || e.hb.b1 == 0) && e.hb.b2 == 0

/-- The encoder's fail latch: SINK_ERROR with INFO1 = 0 in FAILED, empty otherwise (R32, R43, R175). -/
def Encoder.latchWf (e : Encoder) : Bool :=
  match e.mode with
  | .failed => e.latch.code == .sinkError && e.latch.info1 == 0
  | .opened => e.latch == .empty
  | .closed => e.latch == .empty

/-- The decoder's invariants (R45): CURSOR ≤ VALID, VALID = 0 unless ACTIVE, BUF[i] = 0 for i ≥ VALID. -/
def Decoder.wf (d : Decoder) : Bool :=
  d.cursor.val ≤ d.valid.val && (d.valid.val == 0 || d.mode == .active) && (1 ≤ d.valid.val || d.buf.b0 == 0) &&
    (2 ≤ d.valid.val || d.buf.b1 == 0) && (3 ≤ d.valid.val || d.buf.b2 == 0)

/-- The decoder's fail latch: one of its three own errors in FAILED, empty otherwise (R33, R47, R245). -/
def Decoder.latchWf (d : Decoder) : Bool :=
  match d.mode with
  | .failed =>
    d.latch.code == .sourceError || d.latch.code == .unexpectedEndOfInput || d.latch.code == .invalidCharacter
  | .active => d.latch == .empty
  | .eoi => d.latch == .empty
  | .closed => d.latch == .empty

/-- The phase that waits for a SinkPut inside ENC_WRITE or ENC_CLOSE: FILL may be 3 then (R41). -/
def Phase.inEncoder : Phase → Bool
  | .putting _ _ _ => true
  | .closingSink _ => false
  | .idle => false
  | .running => false
  | .accepted _ _ _ _ => false
  | .pulling _ _ => false
  | .skipping _ _ _ => false
  | .availing => false
  | .closingSource => false

/-- The engine waits for an answer of the sink or the source. -/
def Phase.waiting : Phase → Bool
  | .putting _ _ _ => true
  | .closingSink _ => true
  | .pulling _ _ => true
  | .skipping _ _ _ => true
  | .availing => true
  | .closingSource => true
  | .idle => false
  | .running => false
  | .accepted _ _ _ _ => false

/-- What a step of DEC_SKIP has still to do: step 3 runs with at most 2 bytes left (R211). -/
def PullFor.wf : PullFor → Bool
  | .read => true
  | .skip _ left => 1 ≤ left && left ≤ 2

/-- The command whose group a PullGroup reads (R200, R204). -/
def PullFor.command : PullFor → Instr
  | .read => .decRead
  | .skip _ _ => .decSkip

/-- The command whose characters an EncEmit offers (R173, R176). -/
def EmitFor.command : EmitFor → Instr
  | .write => .encWrite
  | .close => .encClose

/-- A character the encoder may offer: an ALPHA entry or the pad (R171). -/
def sinkChar (c : Byte) : Bool := isAlpha c || c == padCode

/-- The engine's phase fits the latched word and the adapter that waits (R22, R23, R174, R194, R204): between two
steps no command is half way between port requests, and a waiting adapter is in a mode that may issue requests. -/
def Phase.wf (s : State) : Prop :=
  match s.phase with
  | .idle => True
  | .running => False
  | .accepted n src dst _ =>
    1 ≤ n ∧ src.inDmem s.params.dmemSize = true ∧ dst.inDmem s.params.dmemSize = true
  | .putting c rest goal =>
    s.cmdWord = some (encode goal.command) ∧ s.enc.mode = .opened ∧ (c :: rest).all sinkChar = true ∧ rest.length ≤ 3
  | .closingSink _ => s.cmdWord = some (encode .encClose) ∧ s.enc.mode = .opened ∧ s.enc.fill = 0
  | .pulling got goal =>
    s.cmdWord = some (encode goal.command) ∧ s.dec.mode = .active ∧ got.length ≤ 3 ∧ goal.wf = true
  | .skipping chars _ left =>
    s.cmdWord = some (encode .decSkip) ∧ s.dec.mode = .active ∧ 0 < left / 3 ∧ chars = 4 * (left / 3)
  | .availing => s.cmdWord = some (encode .decAvail) ∧ s.dec.mode = .active
  | .closingSource => s.cmdWord = some (encode .decClose) ∧ (s.dec.mode = .active ∨ s.dec.mode = .eoi)

/-- The invariant of the machine between two steps. -/
structure MachineInv (s : State) : Prop where
  /-- DMEM_AW lies in its range (R7). -/
  params : s.params.wf = true
  /-- DMEM keeps its canonical form. -/
  dmemWf : Memory.wf s.dmem = true
  /-- No byte is listed outside DMEM (R50). -/
  dmemInside : Memory.inside s.dmem s.params.dmemSize = true
  /-- A word is latched exactly while BUSY = 1 (R22, R25). -/
  latched : s.cmdWord.isSome = s.busy
  /-- DONE reads 0 while BUSY = 1 (R26, R280). -/
  notDone : s.busy = true → s.done = false
  /-- R41, whenever no SinkPut is outstanding. -/
  encWf : s.phase.inEncoder = false → s.enc.wf = true
  /-- R43. -/
  encLatch : s.enc.latchWf = true
  /-- R45. -/
  decWf : s.dec.wf = true
  /-- R47. -/
  decLatch : s.dec.latchWf = true
  /-- The engine's phase is one a run reaches. -/
  phaseWf : Phase.wf s

/-- A run of `k` steps from the state does not stop: no fault and no refusal. -/
def RunsFor (k : Nat) (s : State) : Prop := ∃ t, Host.Core.run Sys2Proof.core k s = .next t

/-- A safe run: it never stops, however long it is (a machine that waits for ever is safe, R283). -/
def Safe (s : State) : Prop := ∀ k, RunsFor k s

/-- What the outside world has still to do keeps the interface (R50, R53). -/
def State.inputsWf (s : State) : Bool := s.inputs.all (Input.wf s.params)

/-- The number of port requests a command has issued. -/
def State.requests (s : State) : Nat := s.sink.log.length + s.source.log.length

end Sys2Proof.Machine
end

