-- ==== Sys2Proof/Certificates/Slice0/Obligations.lean ====
section
/-! DEFINITION. The statements about B64DP, from the numbered rules of spec/. -/

open Sys2Proof Sys2Proof.Machine

namespace Sys2Proof.Claims

/-- The state a command leaves when it completes with these values and changes nothing else (R232). -/
def completed (s : State) (code : Code) (result info0 info1 : Word) : State :=
  { s with
    code := code
    result := result
    info0 := info0
    info1 := info1
    phase := .idle
    cmdWord := none
    done := true }

/-- CheckSrcRange passes (R130). -/
def SrcInRange (s : State) : Prop :=
  0 ≤ s.srcOff ∧ s.srcOff ≤ s.srcLen ∧ 0 ≤ s.srcCnt ∧ s.srcOff + s.srcCnt ≤ s.srcLen

/-- Where the source region starts: SRC_BASE + SrcOff (R133). -/
def srcAt (s : State) : Nat := ((s.srcBase : Int) + s.srcOff).toNat

/-- How long the source region is: SrcCnt (R133). -/
def srcN (s : State) : Nat := s.srcCnt.toNat

/-- Where the destination of DECODE starts: DST_BASE + DstOff (R143). -/
def dstAt (s : State) : Nat := ((s.dstBase : Int) + s.dstOff).toNat

/-- The text or the bytes of the source region. -/
def srcData (s : State) : List Byte := Memory.readBytes s.dmem (srcAt s) (srcN s)

/-- A region is in DMEM (R56). -/
def InDmem (s : State) (start n : Nat) : Prop := n = 0 ∨ start + n ≤ 2 ^ s.params.dmemAw

/-- Two regions do not overlap (R57). -/
def Apart (a n b m : Nat) : Prop := n = 0 ∨ m = 0 ∨ a + n ≤ b ∨ b + m ≤ a

/-- The decoded length of the source text: L·3/4 − padCount, the padCount read off its last two characters
(R141, R142). -/
def decodedN (s : State) : Nat :=
  srcN s * 3 / 4 -
    (if srcN s = 0 then 0
     else if Memory.read s.dmem (srcAt s + srcN s - 1) ≠ 0x3D#8 then 0
     else if Memory.read s.dmem (srcAt s + srcN s - 2) = 0x3D#8 then 2
     else 1)

/-- The memory `m` after a command holds `vs` from `d` on and every other byte of `old` (R133, R143). -/
def Stored (old m : Memory) (d : Nat) (vs : List Byte) : Prop :=
  Memory.readBytes m d vs.length = vs ∧
    ∀ x, x < d ∨ d + vs.length ≤ x → Memory.read m x = Memory.read old x

/-- `n` answers ACK, each at once (R170). -/
def acks (n : Nat) : List (Nat × Answer) := List.replicate n (0, Answer.ack)

/-- These characters, each at once (R190). -/
def chars (cs : List Byte) : List (Nat × ReadAnswer) := cs.map fun c => (0, ReadAnswer.char c)

/-- The sink has been offered, and has accepted, these characters; its answers to come are `later` (R171, R174). -/
def offered (s : State) (cs : List Byte) (later : List (Nat × Answer)) : State :=
  { s with
    sink :=
      { s.sink with
        putAnswers := later
        log := s.sink.log ++ cs.map SinkReq.put
        accepted := s.sink.accepted ++ cs } }

/-- One more SinkPut, not accepted yet. -/
def offering (s : State) (c : Byte) : State :=
  { s with sink := { s.sink with log := s.sink.log ++ [.put c] } }

/-- `n` SrcRead requests have been issued; the source's answers to come are `later` (R191). -/
def readFrom (s : State) (n : Nat) (later : List (Nat × ReadAnswer)) : State :=
  { s with
    source :=
      { s.source with
        readAnswers := later
        log := s.source.log ++ List.replicate n SrcReq.read } }

/-- The encoder's state with an empty buffer and the same latch. -/
def encEmptied (s : State) (m : EncMode) : State :=
  { s with enc := ⟨m, 0, ⟨0, 0, 0⟩, s.enc.latch⟩ }

/-- The encoder after EncFail (R175). -/
def encFailed (s : State) (info : Word) : State :=
  { s with enc := ⟨.failed, 0, ⟨0, 0, 0⟩, ⟨.sinkError, info, 0⟩⟩ }

/-- The decoder's state with an empty buffer and the same latch. -/
def decEmptied (s : State) (m : DecMode) : State :=
  { s with dec := ⟨m, 0, 0, ⟨0, 0, 0⟩, s.dec.latch⟩ }

/-- The decoder after DecFail (R193), completed with the code it reports. -/
def decFailed (s : State) (code : Code) (info0 info1 : Word) : State :=
  completed { s with dec := ⟨.failed, 0, 0, ⟨0, 0, 0⟩, ⟨code, info0, info1⟩⟩ } code 0 info0 info1

/-- A group of `v` bytes is loaded and `k` of them are taken (R198). -/
def decLoaded (s : State) (b : Buf3) (v k : Nat) : State :=
  { s with dec := { s.dec with buf := b, valid := Fin.ofNat 4 v, cursor := Fin.ofNat 4 k } }

/-- The 64 characters of the alphabet in index order, `A`-`Z`, `a`-`z`, `0`-`9`, `+`, `/` (R16, R101). -/
def alphabet : List Nat :=
  [0x41, 0x42, 0x43, 0x44, 0x45, 0x46, 0x47, 0x48, 0x49, 0x4A, 0x4B, 0x4C, 0x4D] ++
  [0x4E, 0x4F, 0x50, 0x51, 0x52, 0x53, 0x54, 0x55, 0x56, 0x57, 0x58, 0x59, 0x5A] ++
  [0x61, 0x62, 0x63, 0x64, 0x65, 0x66, 0x67, 0x68, 0x69, 0x6A, 0x6B, 0x6C, 0x6D] ++
  [0x6E, 0x6F, 0x70, 0x71, 0x72, 0x73, 0x74, 0x75, 0x76, 0x77, 0x78, 0x79, 0x7A] ++
  [0x30, 0x31, 0x32, 0x33, 0x34, 0x35, 0x36, 0x37, 0x38, 0x39, 0x2B, 0x2F]

/-- The host issues one ENC_WRITE per byte, each of which completes with OK (R179, R276). -/
inductive WritesAll : List Byte → State → State → Prop where
  | nil (s : State) : WritesAll [] s s
  | cons {b : Byte} {bs : List Byte} {s t u : State} :
      exec .encWrite { s with args := { s.args with arg := b.setWidth 32 } } = .next t →
      t.phase = .idle → t.code = .ok → WritesAll bs t u → WritesAll (b :: bs) s u

/-- One DEC_READ per byte, each of which completes with OK and the byte as its RESULT (R202, R276). -/
inductive ReadsAll : List Byte → State → State → Prop where
  | nil (s : State) : ReadsAll [] s s
  | cons {b : Byte} {bs : List Byte} {s t u : State} :
      exec .decRead s = .next t → t.phase = .idle → t.code = .ok → t.result = b.setWidth 32 →
      ReadsAll bs t u → ReadsAll (b :: bs) s u

/-- The next DEC_READ gives END_OF_INPUT (R200). -/
def EndsNow (s : State) : Prop :=
  ∃ t, exec .decRead s = .next t ∧ t.phase = .idle ∧ t.code = .endOfInput ∧ t.result = 0xFFFFFFFF#32

/-- The queue that holds the answer the engine waits for is empty (R283). -/
def Unanswered (s : State) : Prop :=
  match s.phase with
  | .putting _ _ _ => s.sink.putAnswers = []
  | .closingSink _ => s.sink.closeAnswers = []
  | .pulling _ _ => s.source.readAnswers = []
  | .skipping _ _ _ => s.source.skipAnswers = []
  | .availing => s.source.availAnswers = []
  | .closingSource => s.source.closeAnswers = []
  | .idle => False
  | .running => False
  | .accepted _ _ _ _ => False

/-- The CSRs the host may write (R23: access RW). -/
def rwCsrs : List CsrName := [.srcBase, .srcLen, .srcOff, .srcCnt, .dstBase, .dstLen, .dstOff, .arg]

/-- The argument register of that name holds the value. -/
def holds (a : Args) (n : CsrName) (v : Word) : Prop :=
  match n with
  | .srcBase => a.srcBase = v
  | .srcLen => a.srcLen = v
  | .srcOff => a.srcOff = v
  | .srcCnt => a.srcCnt = v
  | .dstBase => a.dstBase = v
  | .dstLen => a.dstLen = v
  | .dstOff => a.dstOff = v
  | .arg => a.arg = v
  | .id | .cmd | .status | .result | .info0 | .info1 | .encState | .decState | .decBuf => False

/-- The number of a status code, as the table of R240 has it. -/
def codeNumber : Code → Nat
  | .ok => 0
  | .endOfInput => 1
  | .cannotSkip => 2
  | .invalidRange => 3
  | .invalidLength => 4
  | .bufferTooSmall => 5
  | .invalidCharacter => 6
  | .unexpectedEndOfInput => 7
  | .sinkError => 8
  | .sourceError => 9
  | .streamClosed => 10
  | .busError => 11
  | .regionOverlap => 12
  | .illegalCommand => 13

/-- The number ENC_STATE.MODE shows (R32). -/
def encModeNumber : EncMode → Nat
  | .opened => 0
  | .closed => 1
  | .failed => 2

/-- The number DEC_STATE.MODE shows (R33). -/
def decModeNumber : DecMode → Nat
  | .active => 0
  | .eoi => 1
  | .closed => 2
  | .failed => 3

/-- The offset of each register, as the table of R23 has it. -/
def registerOffset : CsrName → Nat
  | .id => 0x00
  | .cmd => 0x04
  | .status => 0x08
  | .result => 0x0C
  | .info0 => 0x10
  | .info1 => 0x14
  | .srcBase => 0x18
  | .srcLen => 0x1C
  | .srcOff => 0x20
  | .srcCnt => 0x24
  | .dstBase => 0x28
  | .dstLen => 0x2C
  | .dstOff => 0x30
  | .arg => 0x34
  | .encState => 0x38
  | .decState => 0x3C
  | .decBuf => 0x40

/-- The host writes this register next, with an aligned 32-bit access at its offset of R23 (R76). -/
def writes (s : State) (n : CsrName) (v : Word) (rest : List Input) : Prop :=
  s.inputs = .csrWrite (s.params.csrBase + registerOffset n) .word v :: rest

/-- The host reads this register next, with an aligned 32-bit access at its offset of R23 (R76). -/
def reads (s : State) (n : CsrName) (rest : List Input) : Prop :=
  s.inputs = .csrRead (s.params.csrBase + registerOffset n) .word :: rest

/-- A host read has returned this value, and the input is used up. -/
def answered (s : State) (off : Nat) (v : Word) (rest : List Input) : State :=
  { s with inputs := rest, hostLog := s.hostLog ++ [.csr off v] }

/-! ## What a command does with the answers of a port, request by request -/

/-- The answer to the outstanding request is not there yet: none is to come, or the next one needs more steps. -/
def Late {α : Type} (answers : List (Nat × α)) : Prop := answers = [] ∨ ∃ d a later, answers = (d + 1, a) :: later

/-- The sink's answers to SinkPut still to come. -/
def putAnswersLeft (s : State) (q : List (Nat × Answer)) : State := { s with sink := { s.sink with putAnswers := q } }

/-- The sink's answers to SinkClose still to come. -/
def sinkCloseAnswersLeft (s : State) (q : List (Nat × Answer)) : State :=
  { s with sink := { s.sink with closeAnswers := q } }

/-- The sink has accepted this character, and its answers still to come are `q`. -/
def accepting (s : State) (c : Byte) (q : List (Nat × Answer)) : State :=
  { s with sink := { s.sink with putAnswers := q, accepted := s.sink.accepted ++ [c] } }

/-- SinkClose has been issued. -/
def closingSink (s : State) : State := { s with sink := { s.sink with log := s.sink.log ++ [.close] } }

/-- The end of ENC_CLOSE (R176), with its SinkClose outstanding and `sent` characters accepted: the state it leaves. -/
inductive SinkCloses (sent : Nat) (s : State) : State → Prop where
  | closed {q : List (Nat × Answer)} : s.sink.closeAnswers = (0, .ack) :: q →
      SinkCloses sent s
        (completed { sinkCloseAnswersLeft s q with enc := { s.enc with mode := .closed } } .ok (BitVec.ofNat 32 sent) 0 0)
  | failed {info : Word} {q : List (Nat × Answer)} : s.sink.closeAnswers = (0, .err info) :: q →
      SinkCloses sent s (completed (encFailed (sinkCloseAnswersLeft s q) info) .sinkError 0 info 0)
  | late : Late s.sink.closeAnswers → SinkCloses sent s { s with phase := .closingSink sent }

/-- EncEmit (R174) with SinkPut of the first character outstanding and the others still to offer, and what follows it
in ENC_WRITE (R173) or ENC_CLOSE (R176): the state the command leaves. -/
inductive Offers : EmitFor → Byte → List Byte → State → State → Prop where
  | failed {goal : EmitFor} {c : Byte} {cs : List Byte} {s : State} {info : Word} {q : List (Nat × Answer)} :
      s.sink.putAnswers = (0, .err info) :: q →
      Offers goal c cs s (completed (encFailed (putAnswersLeft s q) info) .sinkError 0 info 0)
  | late {goal : EmitFor} {c : Byte} {cs : List Byte} {s : State} : Late s.sink.putAnswers →
      Offers goal c cs s { s with phase := .putting c cs goal }
  | accepted {goal : EmitFor} {c d : Byte} {cs : List Byte} {s u : State} {q : List (Nat × Answer)} :
      s.sink.putAnswers = (0, .ack) :: q → Offers goal d cs (offering (accepting s c q) d) u →
      Offers goal c (d :: cs) s u
  | wrote {c : Byte} {s : State} {q : List (Nat × Answer)} : s.sink.putAnswers = (0, .ack) :: q →
      Offers .write c [] s (completed (encEmptied (accepting s c q) s.enc.mode) .ok 4 0 0)
  | flushed {c : Byte} {s u : State} {q : List (Nat × Answer)} : s.sink.putAnswers = (0, .ack) :: q →
      SinkCloses 4 (closingSink (encEmptied (accepting s c q) s.enc.mode)) u → Offers .close c [] s u

/-- The source's answers to SrcRead still to come. -/
def readAnswersLeft (s : State) (q : List (Nat × ReadAnswer)) : State :=
  { s with source := { s.source with readAnswers := q } }

/-- The source's answers to SrcSkip still to come. -/
def skipAnswersLeft (s : State) (q : List (Nat × SkipAnswer)) : State :=
  { s with source := { s.source with skipAnswers := q } }

/-- The source's answers to SrcAvail still to come. -/
def availAnswersLeft (s : State) (q : List (Nat × AvailAnswer)) : State :=
  { s with source := { s.source with availAnswers := q } }

/-- The source's answers to SrcClose still to come. -/
def sourceCloseAnswersLeft (s : State) (q : List (Nat × Answer)) : State :=
  { s with source := { s.source with closeAnswers := q } }

/-- A request on the source port has been issued (R190). -/
def requesting (s : State) (r : SrcReq) : State := { s with source := { s.source with log := s.source.log ++ [r] } }

/-- PullGroup (R194) with SrcRead outstanding after the characters `got`, and what follows it in DEC_READ (R200) or in
step 3 of DEC_SKIP (R204, R211), with `total` bytes skipped and `left` to skip: the state the command leaves. -/
inductive Pulls : PullFor → List Byte → State → State → Prop where
  | failed {goal : PullFor} {got : List Byte} {s : State} {info : Word} {q : List (Nat × ReadAnswer)} :
      s.source.readAnswers = (0, .err info) :: q →
      Pulls goal got s (decFailed (readAnswersLeft s q) .sourceError info 0)
  | late {goal : PullFor} {got : List Byte} {s : State} : Late s.source.readAnswers →
      Pulls goal got s { s with phase := .pulling got goal }
  | readEnds {s : State} {q : List (Nat × ReadAnswer)} : s.source.readAnswers = (0, .eof) :: q →
      Pulls .read [] s (completed (decEmptied (readAnswersLeft s q) .eoi) .endOfInput 0xFFFFFFFF#32 0 0)
  | skipEnds {total left : Nat} {s : State} {q : List (Nat × ReadAnswer)} : s.source.readAnswers = (0, .eof) :: q →
      Pulls (.skip total left) [] s
        (completed (decEmptied (readAnswersLeft s q) .eoi) .ok (BitVec.ofNat 32 total) 0 0)
  | cutShort {goal : PullFor} {got : List Byte} {s : State} {q : List (Nat × ReadAnswer)} :
      s.source.readAnswers = (0, .eof) :: q → got ≠ [] →
      Pulls goal got s (decFailed (readAnswersLeft s q) .unexpectedEndOfInput (BitVec.ofNat 32 got.length) 0)
  | character {goal : PullFor} {got : List Byte} {c : Byte} {s u : State} {q : List (Nat × ReadAnswer)} :
      s.source.readAnswers = (0, .char c) :: q → got.length < 3 →
      Pulls goal (got ++ [c]) (requesting (readAnswersLeft s q) .read) u → Pulls goal got s u
  | invalid {goal : PullFor} {got : List Byte} {c x : Byte} {k : Nat} {g : TextGroup} {s : State}
      {q : List (Nat × ReadAnswer)} :
      s.source.readAnswers = (0, .char c) :: q → g.chars = got ++ [c] → groupDecode g true = .err x k →
      Pulls goal got s (decFailed (readAnswersLeft s q) .invalidCharacter (x.setWidth 32) (BitVec.ofNat 32 k))
  | readMet {got : List Byte} {c : Byte} {g : TextGroup} {b : Buf3} {v : Nat} {s : State} {q : List (Nat × ReadAnswer)} :
      s.source.readAnswers = (0, .char c) :: q → g.chars = got ++ [c] → groupDecode g true = .ok b v →
      Pulls .read got s (completed (decLoaded (readAnswersLeft s q) b v 1) .ok (b.b0.setWidth 32) 0 0)
  | skipMet {total left : Nat} {got : List Byte} {c : Byte} {g : TextGroup} {b : Buf3} {v : Nat} {s : State}
      {q : List (Nat × ReadAnswer)} :
      s.source.readAnswers = (0, .char c) :: q → g.chars = got ++ [c] → groupDecode g true = .ok b v → left ≤ v →
      Pulls (.skip total left) got s
        (completed (decLoaded (readAnswersLeft s q) b v left) .ok (BitVec.ofNat 32 (total + left)) 0 0)
  | skipMore {total left : Nat} {got : List Byte} {c : Byte} {g : TextGroup} {b : Buf3} {v : Nat} {s u : State}
      {q : List (Nat × ReadAnswer)} :
      s.source.readAnswers = (0, .char c) :: q → g.chars = got ++ [c] → groupDecode g true = .ok b v → v < left →
      Pulls (.skip (total + v) (left - v)) [] (requesting (decLoaded (readAnswersLeft s q) b v v) .read) u →
      Pulls (.skip total left) got s u

/-- Step 2 of DEC_SKIP (R204, R207-R210) with SrcSkip(`asked`) outstanding, `total` bytes skipped and `left` to skip:
the state the command leaves. An answer above `asked` is not admitted (R190, U11). -/
inductive Skips (asked total left : Nat) (s : State) : State → Prop where
  | failed {info : Word} {q : List (Nat × SkipAnswer)} : s.source.skipAnswers = (0, .err info) :: q →
      Skips asked total left s (decFailed (skipAnswersLeft s q) .sourceError info 0)
  | late : Late s.source.skipAnswers → Skips asked total left s { s with phase := .skipping asked total left }
  | cutShort {w : Word} {q : List (Nat × SkipAnswer)} : s.source.skipAnswers = (0, .skipped w) :: q →
      w.toNat ≤ asked → w.toNat % 4 ≠ 0 →
      Skips asked total left s
        (decFailed (skipAnswersLeft s q) .unexpectedEndOfInput (BitVec.ofNat 32 (w.toNat % 4)) 0)
  | exhausted {w : Word} {q : List (Nat × SkipAnswer)} : s.source.skipAnswers = (0, .skipped w) :: q →
      w.toNat < asked → w.toNat % 4 = 0 →
      Skips asked total left s
        (completed (decEmptied (skipAnswersLeft s q) .eoi) .ok (BitVec.ofNat 32 (total + w.toNat / 4 * 3)) 0 0)
  | met {w : Word} {q : List (Nat × SkipAnswer)} : s.source.skipAnswers = (0, .skipped w) :: q →
      w.toNat = asked → left = asked / 4 * 3 →
      Skips asked total left s (completed (skipAnswersLeft s q) .ok (BitVec.ofNat 32 (total + left)) 0 0)
  | pulls {w : Word} {q : List (Nat × SkipAnswer)} {u : State} : s.source.skipAnswers = (0, .skipped w) :: q →
      w.toNat = asked → asked / 4 * 3 < left →
      Pulls (.skip (total + asked / 4 * 3) (left - asked / 4 * 3)) [] (requesting (skipAnswersLeft s q) .read) u →
      Skips asked total left s u

end Sys2Proof.Claims

open Sys2Proof.Claims

/-! ## Encoding -/

/-- R72: the opcode map, each word written out. -/
def Obligations.OpcodeMapWordsDecode : Prop :=
  decode 0x00000000#32 = .ok .nop ∧ decode 0x00000001#32 = .ok .encode ∧ decode 0x00000002#32 = .ok .decode ∧
  decode 0x00000003#32 = .ok .decodeAlloc ∧ decode 0x00000004#32 = .ok .validate ∧
  decode 0x00000008#32 = .ok .tblAlpha ∧ decode 0x00000009#32 = .ok .tblInv ∧
  decode 0x00000010#32 = .ok .encOpen ∧ decode 0x00000011#32 = .ok .encWrite ∧ decode 0x00000012#32 = .ok .encClose ∧
  decode 0x00000020#32 = .ok .decOpen ∧ decode 0x00000021#32 = .ok .decRead ∧ decode 0x00000022#32 = .ok .decSkip ∧
  decode 0x00000023#32 = .ok .decAvail ∧ decode 0x00000024#32 = .ok .decClose

/-- Decoding an encoded command gives it back, for all 15 commands (R70, R72). -/
def Obligations.DecodeOfEncodeIsTheCommand : Prop :=
  ∀ i : Instr, Instr.wf i = true → decode (encode i) = .ok i ∧ commandWordWf (encode i) = true

/-- R73: w selects the row iff w[31:8] = 0 and w[7:0] equals the row's OPCODE; every row has mask 0xFFFF_FFFF and match
equal to the word. -/
def Obligations.WordSelectsRowIffOpcodeMatches : Prop :=
  (∀ (w : Word) (i : Instr), decode w = .ok i ↔ w.toNat / 256 = 0 ∧ w.toNat % 256 = (opcodeOf i).toNat) ∧
  ∀ r ∈ opcodeRows, r.mask = 0xFFFFFFFF#32 ∧ r.pattern = encode r.instr

/-- R74, R75: the words that select no row are those with w[31:8] ≠ 0 or an unassigned OPCODE, and each word either
selects one command or is illegal. -/
def Obligations.EveryWordIsACommandOrIllegal : Prop :=
  ∀ w : Word,
    ((∃ e, decode w = .error e) ↔
      (w.toNat / 256 ≠ 0 ∨ (0x05 ≤ w.toNat % 256 ∧ w.toNat % 256 ≤ 0x07) ∨ (0x0A ≤ w.toNat % 256 ∧ w.toNat % 256 ≤ 0x0F) ∨
        (0x13 ≤ w.toNat % 256 ∧ w.toNat % 256 ≤ 0x1F) ∨ 0x25 ≤ w.toNat % 256)) ∧
    ((∃ i, decode w = .ok i ∧ ∀ j, decode w = .ok j → j = i) ∨ ∃ e, decode w = .error e)

/-! ## The command engine and the host port -/

/-- R230: a CMD write to an IDLE engine is accepted (BUSY 1, DONE 0, OVR 0, the word latched), and the row the word
selects is executed on that state. The latency drawn is 0 here, the model's own timing (assumption 4). -/
def Obligations.StepRunsTheDecodedCommand : Prop :=
  ∀ (s : State) (w : Word) (i : Instr) (rest : List Input) (lat : List Nat),
    s.phase = .idle → writes s .cmd w rest → decode w = .ok i → (s.latency = lat ∧ lat = [] ∨ s.latency = 0 :: lat) →
    step s =
      exec i { s with inputs := rest, latency := lat, phase := .running, cmdWord := some w, done := false, ovr := false }

/-- R235: an illegal word is accepted like any other and completes with ILLEGAL_COMMAND, INFO0 = the word, INFO1 = 0,
RESULT = 0, and nothing else changes but the flags of acceptance and completion: in the step that writes it when its
latency is 0, else in the step in which that has run out. A write to CMD or an argument register in that last step is
still ignored and sets OVR (R231, R285). Latencies and the reading of R74's "at once" are the model's own (assumption 4),
and so is the order of a step, the host's input before the engine's move (assumption 1). -/
def Obligations.IllegalWordCompletesWithIllegalCommand : Prop :=
  (∀ (s : State) (w : Word) (rest : List Input) (lat : List Nat),
    s.phase = .idle → writes s .cmd w rest → (∃ e, decode w = .error e) →
    (s.latency = lat ∧ lat = [] ∨ s.latency = 0 :: lat) →
    step s = .next (completed { s with inputs := rest, latency := lat, ovr := false } .illegalCommand 0 w 0)) ∧
  (∀ (s : State) (w : Word) (src dst : Region),
    s.phase = .accepted 1 src dst false → s.cmdWord = some w → (∃ e, decode w = .error e) →
    (s.inputs = [] → step s = .next (completed s .illegalCommand 0 w 0)) ∧
    (∀ (n : CsrName) (v : Word) (rest : List Input), n = .cmd ∨ n ∈ rwCsrs → writes s n v rest →
      step s = .next (completed { s with inputs := rest, ovr := true } .illegalCommand 0 w 0)))

/-- A command word, legal or illegal, whose latency is not 0 stays accepted, BUSY = 1 and DONE = 0, and a command takes
its effects in the step in which the latency has run out; the model's form of "an unspecified finite time" (R286,
assumption 4). The regions a command guards meanwhile are those of GuardedRegionsAreThoseOfTheCommand; an illegal word
guards none, and IllegalWordCompletesWithIllegalCommand says how it completes. -/
def Obligations.LatencyKeepsTheCommandAccepted : Prop :=
  (∀ (s : State) (w : Word) (n : Nat) (rest : List Input) (lat : List Nat),
    s.phase = .idle → writes s .cmd w rest → s.latency = (n + 1) :: lat →
    (∀ i : Instr, decode w = .ok i →
      step s = .next { s with
        inputs := rest, latency := lat, phase := .accepted (n + 1) (guardedSrc i s) (guardedDst i s) false,
        cmdWord := some w, done := false, ovr := false }) ∧
    ((∃ e, decode w = .error e) →
      step s = .next { s with
        inputs := rest, latency := lat, phase := .accepted (n + 1) ⟨0, 0⟩ ⟨0, 0⟩ false,
        cmdWord := some w, done := false, ovr := false })) ∧
  (∀ (s : State) (n : Nat) (src dst : Region) (broken : Bool),
    s.phase = .accepted (n + 2) src dst broken → s.inputs = [] →
    step s = .next { s with phase := .accepted (n + 1) src dst broken }) ∧
  (∀ (s : State) (w : Word) (i : Instr) (src dst : Region),
    s.phase = .accepted 1 src dst false → s.inputs = [] → s.cmdWord = some w → decode w = .ok i →
    step s = exec i { s with phase := .running })

/-- R231: while BUSY = 1 a write to CMD or to an RW register is ignored and sets OVR; a write to any other register is
ignored and does not set it. The engine then moves on as it would without the write (`tick`). -/
def Obligations.BusyWritesAreIgnoredAndSetOvr : Prop :=
  ∀ (s : State) (n : CsrName) (v : Word) (rest : List Input),
    s.phase ≠ .idle → writes s n v rest →
    step s =
      tick { s with inputs := rest, ovr := if n = .cmd ∨ n ∈ rwCsrs then true else s.ovr }

/-- R23, R29-R31: at the offsets of the table of R23, a write to an RW register while IDLE stores all 32 bits in that
register and in no other, a write to a RO register changes nothing, and a read of an RW register returns what it
holds. -/
def Obligations.IdleRegisterWritesStore : Prop :=
  (∀ (s : State) (n : CsrName) (v : Word) (rest : List Input),
    s.phase = .idle → n ∈ rwCsrs → writes s n v rest →
    ∃ a : Args, step s = .next { s with inputs := rest, args := a } ∧ holds a n v ∧
      ∀ m ∈ rwCsrs, m ≠ n → ∀ x, holds s.args m x → holds a m x) ∧
  (∀ (s : State) (n : CsrName) (v : Word) (rest : List Input),
    s.phase = .idle → n ∉ rwCsrs → n ≠ .cmd → writes s n v rest → step s = .next { s with inputs := rest }) ∧
  (∀ (s : State) (n : CsrName) (v : Word) (rest : List Input),
    s.phase = .idle → n ∈ rwCsrs → holds s.args n v → reads s n rest →
    step s = .next (answered s (registerOffset n) v rest))

/-- R24, R26-R28, R32-R34, R240: what each RO register reads while IDLE, field by field, the codes and modes by their
numbers, and CMD reads 0 (R25). -/
def Obligations.IdleReadsShowTheRegisters : Prop :=
  ∀ (s : State) (rest : List Input), s.phase = .idle →
    (reads s .id rest → step s = .next (answered s 0x00 0x42363401#32 rest)) ∧
    (reads s .cmd rest → step s = .next (answered s 0x04 0 rest)) ∧
    (reads s .status rest →
      ∃ v, step s = .next (answered s 0x08 v rest) ∧
        v.toNat = 2 * s.done.toNat + 4 * s.ovr.toNat + 2 ^ 8 * codeNumber s.code) ∧
    (reads s .result rest → step s = .next (answered s 0x0C s.result rest)) ∧
    (reads s .info0 rest → step s = .next (answered s 0x10 s.info0 rest)) ∧
    (reads s .info1 rest → step s = .next (answered s 0x14 s.info1 rest)) ∧
    (reads s .encState rest →
      ∃ v, step s = .next (answered s 0x38 v rest) ∧
        v.toNat = s.enc.fill.val + 2 ^ 2 * encModeNumber s.enc.mode + 2 ^ 4 * codeNumber s.enc.latch.code +
          2 ^ 8 * s.enc.hb.b0.toNat + 2 ^ 16 * s.enc.hb.b1.toNat) ∧
    (reads s .decState rest →
      ∃ v, step s = .next (answered s 0x3C v rest) ∧
        v.toNat = s.dec.cursor.val + 2 ^ 2 * s.dec.valid.val + 2 ^ 4 * decModeNumber s.dec.mode +
          2 ^ 8 * codeNumber s.dec.latch.code) ∧
    (reads s .decBuf rest →
      ∃ v, step s = .next (answered s 0x40 v rest) ∧
        v.toNat = s.dec.buf.b0.toNat + 2 ^ 8 * s.dec.buf.b1.toNat + 2 ^ 16 * s.dec.buf.b2.toNat)

/-- R25, R280: what a host read answers while BUSY = 1: ID, CMD and the argument registers exactly, STATUS with BUSY = 1,
DONE = 0 and OVR exactly and its reserved bits 0, each other register a free value with its reserved bits 0. The answer
reaches the host, and the engine moves on as it would without the read (`tick`).
Free values and their counter are the model's choice (assumption 5). -/
def Obligations.BusyReadsAreExactOrFree : Prop :=
  ∀ (s : State) (rest : List Input), s.phase ≠ .idle → s.done = false →
    (∀ (n : CsrName) (v : Word), (n = .id ∧ v = 0x42363401#32) ∨ (n = .cmd ∧ v = 0) ∨ (n ∈ rwCsrs ∧ holds s.args n v) →
      reads s n rest → step s = tick (answered s (registerOffset n) v rest)) ∧
    (reads s .status rest →
      ∃ v, step s = tick { answered s 0x08 v rest with draws := s.draws + 1 } ∧
        v &&& 0xFFFFF0FF#32 = (if s.ovr then 0x5#32 else 0x1#32) ∧ v >>> 8 = Config.freeWord s.draws &&& 0xF#32) ∧
    (∀ (n : CsrName) (mask : Word),
      (n, mask) ∈ [(CsrName.result, 0xFFFFFFFF#32), (.info0, 0xFFFFFFFF#32), (.info1, 0xFFFFFFFF#32),
        (.encState, 0x00FFFFFF#32), (.decState, 0x00000F3F#32), (.decBuf, 0x00FFFFFF#32)] →
      reads s n rest →
      step s =
        tick { answered s (registerOffset n) (Config.freeWord s.draws &&& mask) rest with draws := s.draws + 1 })

/-- R35: a reserved offset reads 0, a write to it is ignored, and neither changes any state or sets OVR, whatever BUSY
is. The engine's own move, if a command runs, is that of `tick`. -/
def Obligations.ReservedOffsetsReadZeroIgnoreWrites : Prop :=
  ∀ (s : State) (off : Nat) (v : Word) (rest : List Input),
    0x44 ≤ off → off ≤ 0xFC → off % 4 = 0 →
    (s.inputs = .csrRead (s.params.csrBase + off) .word :: rest →
      step s = advance s.busy (.next (answered s off 0 rest))) ∧
    (s.inputs = .csrWrite (s.params.csrBase + off) .word v :: rest →
      step s = advance s.busy (.next { s with inputs := rest }))

/-- R53, U4: a host access that touches the window and is not an aligned 32-bit one is refused.
The refusal is the model's form of U4 (assumption 9). -/
def Obligations.OtherCsrAccessesAreRefused : Prop :=
  ∀ (s : State) (addr : Nat) (width : AccessWidth) (v : Word) (rest : List Input),
    s.params.csrBase < addr + width.bytes → addr < s.params.csrBase + 256 →
    (width ≠ .word ∨ addr < s.params.csrBase ∨ (addr - s.params.csrBase) % 4 ≠ 0) →
    (s.inputs = .csrRead addr width :: rest → step s = .refused (.csrAccessShape addr width)) ∧
    (s.inputs = .csrWrite addr width v :: rest → step s = .refused (.csrAccessShape addr width))

/-- R50: an idle machine's DMEM is the host's: a byte written reads back, every other byte is as before, and an address
at or above DMEM_SIZE does not exist.
The stop is the model's choice (assumption 10). -/
def Obligations.HostDmemAccesses : Prop :=
  ∀ (s : State) (a : Nat) (v : Byte) (rest : List Input), s.phase = .idle → Memory.wf s.dmem = true →
    (a < 2 ^ s.params.dmemAw → s.inputs = .dmemWrite a v :: rest →
      ∃ m, step s = .next { s with inputs := rest, dmem := m } ∧ Stored s.dmem m a [v]) ∧
    (a < 2 ^ s.params.dmemAw → s.inputs = .dmemRead a :: rest →
      step s = .next { s with inputs := rest, hostLog := s.hostLog ++ [.dmem a (Memory.read s.dmem a)] }) ∧
    (2 ^ s.params.dmemAw ≤ a → s.inputs = .dmemWrite a v :: rest → step s = .fault (.noSuchDmemAddress a)) ∧
    (2 ^ s.params.dmemAw ≤ a → s.inputs = .dmemRead a :: rest → step s = .fault (.noSuchDmemAddress a))

/-- R77: `wait` reads STATUS; it is over once BUSY reads 0, and stays the host's next access until then.
That the loop is one input is the model's choice (assumption 11). -/
def Obligations.WaitPollsStatusUntilIdle : Prop :=
  ∀ (s : State) (rest : List Input), s.inputs = .wait :: rest →
    (s.phase = .idle → step s = .next (answered s 0x08 s.statusWord rest)) ∧
    (s.phase ≠ .idle → ∃ v, v &&& 1#32 = 1#32 ∧
      step s = tick { answered s 0x08 v s.inputs with draws := s.draws + 1 })

/-! ## Reset, hang and the host's duty -/

/-- R270: the state after reset, through what the host can read: ID its constant, every other CSR 0; and the engine
IDLE with no request outstanding and no word latched. -/
def Obligations.ResetLeavesEveryRegisterAtItsValue : Prop :=
  (∀ n : CsrName, readCsr n State.reset = ((if n = .id then 0x42363401#32 else 0), State.reset)) ∧
  State.reset.phase = .idle ∧ State.reset.cmdWord = none ∧
  State.reset.enc = ⟨.opened, 0, ⟨0, 0, 0⟩, ⟨.ok, 0, 0⟩⟩ ∧
  State.reset.dec = ⟨.active, 0, 0, ⟨0, 0, 0⟩, ⟨.ok, 0, 0⟩⟩

/-- R272: reset at any time gives exactly the reset values; the destination region of an abandoned bulk command holds
free values and every other byte of DMEM is as before; no request is issued; what the ports have seen stays.
Free values, what a reset keeps outside B64DP, the destination region a command has, and that bytes it shares with the
source region are freed too, are the model's choice (assumptions 5, 12, 15). -/
def Obligations.ResetAbandonsARunningCommand : Prop :=
  ∀ (s : State) (rest : List Input), Memory.wf s.dmem = true → s.inputs = .reset :: rest →
    ∃ (m : Memory) (d : Nat),
      step s =
        .next { State.reset with
          params := s.params, dmem := m, sink := s.sink, source := s.source, inputs := rest, latency := s.latency,
          hostLog := s.hostLog, draws := d } ∧
      match s.phase with
      | .accepted _ _ dst _ => Stored s.dmem m dst.start (freeBytes s.draws dst.len)
      | _ => m = s.dmem ∧ d = s.draws

/-- R283: with no answer to the outstanding request, the machine makes no further move; while the host does anything
but reset, BUSY stays 1, the command stays latched and both adapters stay as they are.
Ports as lists of answers are the model's choice (assumption 13). -/
def Obligations.UnansweredRequestHangs : Prop :=
  (∀ s : State, Unanswered s → s.inputs = [] → step s = .next s) ∧
  (∀ (s t : State) (x : Input) (rest : List Input),
    Unanswered s → s.inputs = x :: rest → x ≠ .reset → step s = .next t →
    t.phase = s.phase ∧ t.cmdWord = s.cmdWord ∧ t.enc = s.enc ∧ t.dec = s.dec ∧ t.args = s.args ∧
      t.sink = s.sink ∧ t.source = s.source)

/-- R62: while a bulk command runs, a host write into its regions and a host read of its destination break the host's
duty, and other accesses do not; a destination byte read meanwhile is free. Once it was broken, the destination bytes,
RESULT, INFO0, INFO1 and CODE are free at completion, no byte outside the destination region changes, and the command
completes. The same for an access in the very step in which the command completes; one that keeps the duty leaves the
command its effects, which see a byte written.
The phase and the free values are the model's choice (assumptions 4, 5, 15). -/
def Obligations.BrokenHostDutyLeavesFreeValues : Prop :=
  (∀ (s : State) (n : Nat) (src dst : Region) (broken : Bool) (a : Nat) (v : Byte) (rest : List Input),
    s.phase = .accepted (n + 2) src dst broken → a < 2 ^ s.params.dmemAw →
    (s.inputs = .dmemWrite a v :: rest →
      step s = .next { s with
        inputs := rest, dmem := Memory.write s.dmem a v,
        phase := .accepted (n + 1) src dst (broken || (src.contains a || dst.contains a)) }) ∧
    (s.inputs = .dmemRead a :: rest → dst.contains a = true →
      step s = .next { s with
        inputs := rest, hostLog := s.hostLog ++ [.dmem a (Config.freeByte s.draws)], draws := s.draws + 1,
        phase := .accepted (n + 1) src dst true }) ∧
    (s.inputs = .dmemRead a :: rest → dst.contains a = false →
      step s = .next { s with
        inputs := rest, hostLog := s.hostLog ++ [.dmem a (Memory.read s.dmem a)],
        phase := .accepted (n + 1) src dst broken })) ∧
  (∀ (s : State) (src dst : Region), Memory.wf s.dmem = true → s.phase = .accepted 1 src dst true → s.inputs = [] →
    ∃ (m : Memory) (d : Nat),
      step s =
        .next (completed { s with dmem := m, draws := d + 4 } (codeOfWord (Config.freeWord d))
          (Config.freeWord (d + 1)) (Config.freeWord (d + 2)) (Config.freeWord (d + 3))) ∧
      d = s.draws + dst.len ∧ Stored s.dmem m dst.start (freeBytes s.draws dst.len)) ∧
  (∀ (s : State) (src dst : Region) (broken : Bool) (a : Nat) (v : Byte) (rest : List Input),
    Memory.wf s.dmem = true → s.phase = .accepted 1 src dst broken → a < 2 ^ s.params.dmemAw →
    (s.inputs = .dmemWrite a v :: rest → broken = true ∨ src.contains a = true ∨ dst.contains a = true →
      ∃ (m : Memory) (d : Nat),
        step s =
          .next (completed { s with inputs := rest, dmem := m, draws := d + 4 } (codeOfWord (Config.freeWord d))
            (Config.freeWord (d + 1)) (Config.freeWord (d + 2)) (Config.freeWord (d + 3))) ∧
        d = s.draws + dst.len ∧ Stored (Memory.write s.dmem a v) m dst.start (freeBytes s.draws dst.len)) ∧
    (s.inputs = .dmemRead a :: rest → dst.contains a = true →
      ∃ (m : Memory) (d : Nat),
        step s =
          .next (completed
            { s with
              inputs := rest, hostLog := s.hostLog ++ [.dmem a (Config.freeByte s.draws)], dmem := m, draws := d + 4 }
            (codeOfWord (Config.freeWord d)) (Config.freeWord (d + 1)) (Config.freeWord (d + 2))
            (Config.freeWord (d + 3))) ∧
        d = s.draws + 1 + dst.len ∧ Stored s.dmem m dst.start (freeBytes (s.draws + 1) dst.len)) ∧
    (s.inputs = .dmemRead a :: rest → dst.contains a = false → broken = true →
      ∃ (m : Memory) (d : Nat),
        step s =
          .next (completed
            { s with
              inputs := rest, hostLog := s.hostLog ++ [.dmem a (Memory.read s.dmem a)], dmem := m, draws := d + 4 }
            (codeOfWord (Config.freeWord d)) (Config.freeWord (d + 1)) (Config.freeWord (d + 2))
            (Config.freeWord (d + 3))) ∧
        d = s.draws + dst.len ∧ Stored s.dmem m dst.start (freeBytes s.draws dst.len)) ∧
    (∀ (w : Word) (i : Instr), broken = false → s.cmdWord = some w → decode w = .ok i →
      (s.inputs = .dmemWrite a v :: rest → src.contains a = false → dst.contains a = false →
        step s = exec i { s with inputs := rest, dmem := Memory.write s.dmem a v, phase := .running }) ∧
      (s.inputs = .dmemRead a :: rest → dst.contains a = false →
        step s =
          exec i { s with
            inputs := rest, hostLog := s.hostLog ++ [.dmem a (Memory.read s.dmem a)], phase := .running })))

/-- R62: the regions an accepted command guards, byte by byte: the bytes in DMEM of its source region (SRC_BASE + SrcOff,
SrcCnt), and of its destination region: ceil(L/3)·4 bytes at DST_BASE for ENCODE, the decoded length at
DST_BASE + DstOff for DECODE and at DST_BASE for DECODE_ALLOC, none for VALIDATE; the other commands guard nothing.
That a command guards no region which a check before it leaves undefined is the model's choice (assumption 15). -/
def Obligations.GuardedRegionsAreThoseOfTheCommand : Prop :=
  ∀ (s : State) (a : Nat),
    (SrcInRange s →
      (∀ i ∈ [Instr.encode, .decode, .decodeAlloc, .validate],
        (guardedSrc i s).contains a = true ↔ srcAt s ≤ a ∧ a < srcAt s + srcN s ∧ a < 2 ^ s.params.dmemAw) ∧
      ((guardedDst .encode s).contains a = true ↔
        s.dstBase ≤ a ∧ a < s.dstBase + (srcN s + 2) / 3 * 4 ∧ a < 2 ^ s.params.dmemAw) ∧
      (s.srcCnt % 4 = 0 → InDmem s (srcAt s) (srcN s) →
        (0 ≤ s.dstOff → s.dstOff ≤ s.dstLen →
          ((guardedDst .decode s).contains a = true ↔
            dstAt s ≤ a ∧ a < dstAt s + decodedN s ∧ a < 2 ^ s.params.dmemAw)) ∧
        ((guardedDst .decodeAlloc s).contains a = true ↔
          s.dstBase ≤ a ∧ a < s.dstBase + decodedN s ∧ a < 2 ^ s.params.dmemAw))) ∧
    (¬SrcInRange s → ∀ i : Instr, (guardedSrc i s).contains a = false ∧ (guardedDst i s).contains a = false) ∧
    (s.srcCnt % 4 ≠ 0 ∨ ¬InDmem s (srcAt s) (srcN s) →
      (guardedDst .decode s).contains a = false ∧ (guardedDst .decodeAlloc s).contains a = false) ∧
    (s.dstOff < 0 ∨ s.dstLen < s.dstOff → (guardedDst .decode s).contains a = false) ∧
    (guardedDst .validate s).contains a = false ∧
    (∀ i ∉ [Instr.encode, .decode, .decodeAlloc, .validate],
      (guardedSrc i s).contains a = false ∧ (guardedDst i s).contains a = false)

/-! ## Control and table commands -/

/-- R234: NOP completes with OK and zeros and touches nothing else. -/
def Obligations.NopCompletes : Prop :=
  ∀ s : State, exec .nop s = .next (completed s .ok 0 0 0)

/-- R120: TBL_ALPHA returns the alphabet's character for ARG up to 63, and INVALID_RANGE with INFO0 = ARG and
INFO1 = 3 above. -/
def Obligations.TblAlphaReadsTheAlphabet : Prop :=
  ∀ s : State,
    (∀ c, alphabet[s.args.arg.toNat]? = some c → exec .tblAlpha s = .next (completed s .ok (BitVec.ofNat 32 c) 0 0)) ∧
    (s.args.arg.toNat < 64 → ∃ c, alphabet[s.args.arg.toNat]? = some c) ∧
    (63 < s.args.arg.toNat → exec .tblAlpha s = .next (completed s .invalidRange 0 s.args.arg 3))

/-- R121: TBL_INV returns the index of the character code in ARG, and 0xFFFF_FFFF for every other code, with no
truncation to 8 bits. R122: applied to TBL_ALPHA's RESULT it returns the index, both adapters unchanged. -/
def Obligations.TblInvInvertsTheAlphabet : Prop :=
  ∀ s : State,
    (∀ k : Nat, alphabet[k]? = some s.args.arg.toNat →
      exec .tblInv s = .next (completed s .ok (BitVec.ofNat 32 k) 0 0)) ∧
    (s.args.arg.toNat ∉ alphabet → exec .tblInv s = .next (completed s .ok 0xFFFFFFFF#32 0 0)) ∧
    (s.args.arg.toNat ≤ 63 →
      ∃ t u, exec .tblAlpha s = .next t ∧ exec .tblInv { t with args := { t.args with arg := t.result } } = .next u ∧
        u.result = s.args.arg ∧ t.enc = s.enc ∧ t.dec = s.dec ∧ u.enc = s.enc ∧ u.dec = s.dec)

/-- R107: the table laws (a) to (d). -/
def Obligations.TableLaws : Prop :=
  (∀ i : Sextet, isAlpha (alpha i) = true ∧ (inv5 (alpha i)).toNat = i.toNat) ∧
  (∀ c : Byte, (∀ i : Sextet, alpha i ≠ c) → isAlpha c = false) ∧
  (∀ c : Byte, isAlpha c = true → ∀ n, (inv5 c).toNat = n →
    (inv0 c).toNat = n * 4 ∧ (inv1 c).toNat = n / 16 ∧ (inv2 c).toNat = n % 16 * 16 ∧ (inv3 c).toNat = n / 4 ∧
      (inv4 c).toNat = n % 4 * 64) ∧
  (∀ b : Byte,
    (fwd0 b).toNat = b.toNat / 4 ∧ (fwd1 b).toNat = b.toNat % 4 * 16 ∧ (fwd2 b).toNat = b.toNat % 16 * 4 ∧
      (fwd3 b).toNat = b.toNat % 64)

/-! ## The packing unit -/

/-- R111: PACK3 cuts the 24-bit value of the group into four sextets, most significant first; R112, R113: PACK2 and
PACK1 put pads after the data characters. -/
def Obligations.PackingCutsTheGroup : Prop :=
  ∀ (b0 b1 b2 : Byte) (v : Nat), v = b0.toNat * 2 ^ 16 + b1.toNat * 2 ^ 8 + b2.toNat →
    pack3 b0 b1 b2 =
      ⟨alpha (BitVec.ofNat 6 (v / 2 ^ 18)), alpha (BitVec.ofNat 6 (v / 2 ^ 12 % 64)), alpha (BitVec.ofNat 6 (v / 2 ^ 6 % 64)),
        alpha (BitVec.ofNat 6 (v % 64))⟩ ∧
    pack2 b0 b1 = ⟨(pack3 b0 b1 0).c0, (pack3 b0 b1 0).c1, (pack3 b0 b1 0).c2, 0x3D#8⟩ ∧
    pack1 b0 = ⟨(pack3 b0 0 0).c0, (pack3 b0 0 0).c1, 0x3D#8, 0x3D#8⟩

/-- R119: the group round trip, and every Ok result of a final group is the image of exactly one packing. -/
def Obligations.GroupRoundTrip : Prop :=
  (∀ (b0 b1 b2 : Byte) (f : Bool), groupDecode (pack3 b0 b1 b2) f = .ok ⟨b0, b1, b2⟩ 3) ∧
  (∀ b0 b1 : Byte, groupDecode (pack2 b0 b1) true = .ok ⟨b0, b1, 0⟩ 2) ∧
  (∀ b0 : Byte, groupDecode (pack1 b0) true = .ok ⟨b0, 0, 0⟩ 1) ∧
  (∀ (g : TextGroup) (b : Buf3) (v : Nat), groupDecode g true = .ok b v →
    (v = 3 ∧ g = pack3 b.b0 b.b1 b.b2) ∨ (v = 2 ∧ g = pack2 b.b0 b.b1 ∧ b.b2 = 0) ∨
      (v = 1 ∧ g = pack1 b.b0 ∧ b.b1 = 0 ∧ b.b2 = 0))

/-- R114-R117: the padCount; the first data position outside the alphabet is reported; only when all pass, the zero-bit
check on the last data character; else the group is valid with 3 − padCount bytes. -/
def Obligations.GroupDecodeReportsTheFirstOffender : Prop :=
  ∀ (g : TextGroup) (f : Bool) (p : Nat),
    (p = if f = true ∧ g.c3 = 0x3D#8 then (if g.c2 = 0x3D#8 then 2 else 1) else 0) →
    (∀ (k : Nat) (c : Byte), k < 4 - p → g.chars[k]? = some c → isAlpha c = false →
      (∀ j x, j < k → g.chars[j]? = some x → isAlpha x = true) → groupDecode g f = .err c k) ∧
    ((∀ k x, k < 4 - p → g.chars[k]? = some x → isAlpha x = true) →
      (p = 2 → (inv5 g.c1).toNat % 16 ≠ 0 → groupDecode g f = .err g.c1 1) ∧
      (p = 1 → (inv5 g.c2).toNat % 4 ≠ 0 → groupDecode g f = .err g.c2 2) ∧
      ((p = 2 → (inv5 g.c1).toNat % 16 = 0) → (p = 1 → (inv5 g.c2).toNat % 4 = 0) →
        ∃ b, groupDecode g f = .ok b (3 - p) ∧ b.b0.toNat = (inv5 g.c0).toNat * 4 + (inv5 g.c1).toNat / 16 ∧
          b.b1.toNat = (if p = 2 then 0 else (inv5 g.c1).toNat % 16 * 16 + (inv5 g.c2).toNat / 4) ∧
          b.b2.toNat = (if 1 ≤ p then 0 else (inv5 g.c2).toNat % 4 * 64 + (inv5 g.c3).toNat)))

/-! ## The bulk codec -/

/-- R131, R133: ENCODE's checks in their order, each ending the command with nothing else changed; and, when all pass,
OK with RESULT = ceil(L/3)·4 and the text at DST_BASE, no other byte of DMEM changed. -/
def Obligations.EncodeFollowsItsRule : Prop :=
  ∀ (s : State) (len : Nat), Memory.wf s.dmem = true → len = (srcN s + 2) / 3 * 4 →
    (s.srcOff < 0 ∨ s.srcLen < s.srcOff → exec .encode s = .next (completed s .invalidRange 0 s.args.srcOff 0)) ∧
    (0 ≤ s.srcOff → s.srcOff ≤ s.srcLen → s.srcCnt < 0 ∨ s.srcLen < s.srcOff + s.srcCnt →
      exec .encode s = .next (completed s .invalidRange 0 s.args.srcCnt 1)) ∧
    (SrcInRange s → ¬InDmem s (srcAt s) (srcN s) →
      exec .encode s = .next (completed s .busError 0 (BitVec.ofNat 32 (srcAt s)) 0)) ∧
    (SrcInRange s → InDmem s (srcAt s) (srcN s) → ¬InDmem s s.dstBase len →
      exec .encode s = .next (completed s .busError 0 s.args.dstBase 1)) ∧
    (SrcInRange s → InDmem s (srcAt s) (srcN s) → InDmem s s.dstBase len → ¬Apart (srcAt s) (srcN s) s.dstBase len →
      exec .encode s = .next (completed s .regionOverlap 0 0 0)) ∧
    (SrcInRange s → InDmem s (srcAt s) (srcN s) → InDmem s s.dstBase len → Apart (srcAt s) (srcN s) s.dstBase len →
      ∃ m, exec .encode s = .next (completed { s with dmem := m } .ok (BitVec.ofNat 32 len) 0 0) ∧
        (encodeText (srcData s)).length = len ∧ Stored s.dmem m s.dstBase (encodeText (srcData s)))

/-- R132, R133: the text of a byte sequence has ceil(L/3)·4 characters: the four characters of PACK3 for each group of
three bytes in order, then those of PACK1 or PACK2 for what is left; every one is of the alphabet but for the pads at the
end: none when 3 divides L, two when L mod 3 = 1, one when L mod 3 = 2. -/
def Obligations.EncodedTextIsGroupByGroup : Prop :=
  (∀ bs : List Byte,
    (encodeText bs).length = (bs.length + 2) / 3 * 4 ∧
    ∃ body : List Byte, body.all isAlpha = true ∧
      encodeText bs = body ++ List.replicate (if bs.length % 3 = 1 then 2 else if bs.length % 3 = 2 then 1 else 0) 0x3D#8) ∧
  (∀ (groups : List Buf3) (left : List Byte),
    encodeText ((groups.map fun b => [b.b0, b.b1, b.b2]).flatten ++ left) =
      (groups.map fun b => (pack3 b.b0 b.b1 b.b2).chars).flatten ++ encodeText left) ∧
  encodeText [] = [] ∧ (∀ b0, encodeText [b0] = (pack1 b0).chars) ∧ ∀ b0 b1, encodeText [b0, b1] = (pack2 b0 b1).chars

/-- R140, R143, R144: DECODE's checks in their order; then OK with RESULT = n and the bytes at DST_BASE + DstOff, or
INVALID_CHARACTER with every byte of the destination region free and no other byte changed.
The free values are the model's choice (assumption 5). -/
def Obligations.DecodeFollowsItsRule : Prop :=
  ∀ (s : State) (n : Nat) (cap : Nat), Memory.wf s.dmem = true → n = decodedN s →
    cap = ((s.dstLen : Int) - s.dstOff).toNat →
    (s.srcCnt % 4 ≠ 0 → exec .decode s = .next (completed s .invalidLength 0 s.args.srcCnt 0)) ∧
    (s.srcCnt % 4 = 0 →
      (s.srcOff < 0 ∨ s.srcLen < s.srcOff → exec .decode s = .next (completed s .invalidRange 0 s.args.srcOff 0)) ∧
      (0 ≤ s.srcOff → s.srcOff ≤ s.srcLen → s.srcCnt < 0 ∨ s.srcLen < s.srcOff + s.srcCnt →
        exec .decode s = .next (completed s .invalidRange 0 s.args.srcCnt 1)) ∧
      (SrcInRange s →
        (s.dstOff < 0 ∨ s.dstLen < s.dstOff → exec .decode s = .next (completed s .invalidRange 0 s.args.dstOff 2)) ∧
        (0 ≤ s.dstOff → s.dstOff ≤ s.dstLen →
          (¬InDmem s (srcAt s) (srcN s) →
            exec .decode s = .next (completed s .busError 0 (BitVec.ofNat 32 (srcAt s)) 0)) ∧
          (InDmem s (srcAt s) (srcN s) → cap < n →
            exec .decode s = .next (completed s .bufferTooSmall 0 (BitVec.ofNat 32 n) (BitVec.ofNat 32 cap))) ∧
          (InDmem s (srcAt s) (srcN s) → n ≤ cap → ¬InDmem s (dstAt s) n →
            exec .decode s = .next (completed s .busError 0 (BitVec.ofNat 32 (dstAt s)) 1)) ∧
          (InDmem s (srcAt s) (srcN s) → n ≤ cap → InDmem s (dstAt s) n → ¬Apart (srcAt s) (srcN s) (dstAt s) n →
            exec .decode s = .next (completed s .regionOverlap 0 0 0)) ∧
          (InDmem s (srcAt s) (srcN s) → n ≤ cap → InDmem s (dstAt s) n → Apart (srcAt s) (srcN s) (dstAt s) n →
            (∀ bytes, decodeText 0 (srcData s) = .ok bytes →
              ∃ m, exec .decode s = .next (completed { s with dmem := m } .ok (BitVec.ofNat 32 n) 0 0) ∧
                bytes.length = n ∧ Stored s.dmem m (dstAt s) bytes) ∧
            (∀ code index, decodeText 0 (srcData s) = .err code index →
              ∃ m, exec .decode s =
                  .next (completed { s with dmem := m, draws := s.draws + n } .invalidCharacter 0 (code.setWidth 32)
                    (BitVec.ofNat 32 index)) ∧
                Stored s.dmem m (dstAt s) (freeBytes s.draws n))))))

/-- R150: DECODE_ALLOC is DECODE at DST_BASE with no DST_OFF check and no BUFFER_TOO_SMALL; DST_LEN and DST_OFF are not
read.
The free values are the model's choice (assumption 5). -/
def Obligations.DecodeAllocFollowsItsRule : Prop :=
  ∀ (s : State) (n : Nat), Memory.wf s.dmem = true → n = decodedN s →
    (s.srcCnt % 4 ≠ 0 → exec .decodeAlloc s = .next (completed s .invalidLength 0 s.args.srcCnt 0)) ∧
    (s.srcCnt % 4 = 0 →
      (s.srcOff < 0 ∨ s.srcLen < s.srcOff →
        exec .decodeAlloc s = .next (completed s .invalidRange 0 s.args.srcOff 0)) ∧
      (0 ≤ s.srcOff → s.srcOff ≤ s.srcLen → s.srcCnt < 0 ∨ s.srcLen < s.srcOff + s.srcCnt →
        exec .decodeAlloc s = .next (completed s .invalidRange 0 s.args.srcCnt 1)) ∧
      (SrcInRange s → ¬InDmem s (srcAt s) (srcN s) →
        exec .decodeAlloc s = .next (completed s .busError 0 (BitVec.ofNat 32 (srcAt s)) 0)) ∧
      (SrcInRange s → InDmem s (srcAt s) (srcN s) → ¬InDmem s s.dstBase n →
        exec .decodeAlloc s = .next (completed s .busError 0 s.args.dstBase 1)) ∧
      (SrcInRange s → InDmem s (srcAt s) (srcN s) → InDmem s s.dstBase n → ¬Apart (srcAt s) (srcN s) s.dstBase n →
        exec .decodeAlloc s = .next (completed s .regionOverlap 0 0 0)) ∧
      (SrcInRange s → InDmem s (srcAt s) (srcN s) → InDmem s s.dstBase n → Apart (srcAt s) (srcN s) s.dstBase n →
        (∀ bytes, decodeText 0 (srcData s) = .ok bytes →
          ∃ m, exec .decodeAlloc s = .next (completed { s with dmem := m } .ok (BitVec.ofNat 32 n) 0 0) ∧
            bytes.length = n ∧ Stored s.dmem m s.dstBase bytes) ∧
        (∀ code index, decodeText 0 (srcData s) = .err code index →
          ∃ m, exec .decodeAlloc s =
              .next (completed { s with dmem := m, draws := s.draws + n } .invalidCharacter 0 (code.setWidth 32)
                (BitVec.ofNat 32 index)) ∧
            Stored s.dmem m s.dstBase (freeBytes s.draws n))))

/-- R143, R248: the groups are decoded in order, only the last one final; the lowest failing group is reported, with the
index from the start of the region; a text whose groups all decode gives their bytes in order. -/
def Obligations.TextDecodesGroupByGroup : Prop :=
  (∀ (before after : List TextGroup) (g : TextGroup) (c : Byte) (k : Nat),
    (∀ x ∈ before, ∃ b v, groupDecode x false = .ok b v) → groupDecode g after.isEmpty = .err c k →
    decodeText 0 ((before ++ g :: after).map TextGroup.chars).flatten = .err c (4 * before.length + k)) ∧
  (∀ (before : List (TextGroup × Buf3)) (g : TextGroup) (b : Buf3) (v : Nat),
    (∀ x ∈ before, groupDecode x.1 false = .ok x.2 3) → groupDecode g true = .ok b v →
    decodeText 0 ((before.map Prod.fst ++ [g]).map TextGroup.chars).flatten =
      .ok ((before.map fun x => [x.2.b0, x.2.b1, x.2.b2]).flatten ++ [b.b0, b.b1, b.b2].take v)) ∧
  decodeText 0 [] = .ok []

/-- R160, R247: VALIDATE always completes with OK and RESULT 0 or 1, and changes nothing else; it is 1 exactly for a
text of non-zero length, a multiple of 4, in range, in DMEM, whose groups all decode. -/
def Obligations.ValidateFollowsItsRule : Prop :=
  ∀ s : State,
    ((s.srcCnt ≠ 0 ∧ s.srcCnt % 4 = 0 ∧ SrcInRange s ∧ InDmem s (srcAt s) (srcN s) ∧
        ∃ bytes, decodeText 0 (srcData s) = .ok bytes) →
      exec .validate s = .next (completed s .ok 1 0 0)) ∧
    (¬(s.srcCnt ≠ 0 ∧ s.srcCnt % 4 = 0 ∧ SrcInRange s ∧ InDmem s (srcAt s) (srcN s) ∧
        ∃ bytes, decodeText 0 (srcData s) = .ok bytes) →
      exec .validate s = .next (completed s .ok 0 0 0))

/-- R161: for SRC_CNT ≠ 0 and a destination that is in DMEM and does not overlap, VALIDATE gives 1 iff DECODE_ALLOC
completes with OK; for SRC_CNT = 0, VALIDATE gives 0 while DECODE and DECODE_ALLOC complete with OK and RESULT 0. -/
def Obligations.ValidateAgreesWithDecodeAlloc : Prop :=
  ∀ s : State,
    (s.srcCnt ≠ 0 → InDmem s s.dstBase (decodedN s) → Apart (srcAt s) (srcN s) s.dstBase (decodedN s) →
      ∃ t u, exec .validate s = .next t ∧ exec .decodeAlloc s = .next u ∧ (t.result = 1 ↔ u.code = .ok)) ∧
    (s.srcCnt = 0 → SrcInRange s → 0 ≤ s.dstOff → s.dstOff ≤ s.dstLen →
      exec .validate s = .next (completed s .ok 0 0 0) ∧ exec .decode s = .next (completed s .ok 0 0 0) ∧
        exec .decodeAlloc s = .next (completed s .ok 0 0 0))

/-- R163: ENCODE, then DECODE_ALLOC over the resulting text, gives the bytes back. The second command's registers name
the text (offset 0, its whole length, which the signed SRC_CNT must hold) and a destination in DMEM apart from it. -/
def Obligations.BulkRoundTrip : Prop :=
  ∀ (s t : State) (dest : Word) (len : Nat), Memory.wf s.dmem = true → len = (srcN s + 2) / 3 * 4 →
    SrcInRange s → InDmem s (srcAt s) (srcN s) → InDmem s s.dstBase len → Apart (srcAt s) (srcN s) s.dstBase len →
    len < 2 ^ 31 → InDmem s dest.toNat (srcN s) → Apart s.dstBase len dest.toNat (srcN s) →
    exec .encode s = .next t →
    ∃ u, exec .decodeAlloc { t with args :=
          { t.args with
            srcBase := s.args.dstBase, srcLen := BitVec.ofNat 32 len, srcOff := 0, srcCnt := BitVec.ofNat 32 len,
            dstBase := dest } } = .next u ∧
      u.code = .ok ∧ u.result = BitVec.ofNat 32 (srcN s) ∧
      Memory.readBytes u.dmem dest.toNat (srcN s) = Memory.readBytes s.dmem (srcAt s) (srcN s)

/-- R58: no command writes a byte of its source region, and VALIDATE writes no DMEM byte at all. -/
def Obligations.SourceRegionIsNeverWritten : Prop :=
  ∀ (i : Instr) (s t : State) (x : Nat), exec i s = .next t →
    (srcAt s ≤ x → x < srcAt s + srcN s → Memory.read t.dmem x = Memory.read s.dmem x) ∧
    (i = .validate → t.dmem = s.dmem)

/-! ## The streaming encoder -/

/-- R172, R195, R273: in every mode ENC_OPEN and DEC_OPEN put their adapter in its reset state and issue no request;
ENC_STATE, or DEC_STATE and DEC_BUF, become 0. -/
def Obligations.OpenCommandsStartFreshStreams : Prop :=
  ∀ s : State,
    (∃ t, exec .encOpen s = .next t ∧ t = completed { s with enc := ⟨.opened, 0, ⟨0, 0, 0⟩, ⟨.ok, 0, 0⟩⟩ } .ok 0 0 0 ∧
      t.enc = State.reset.enc ∧ t.enc.stateWord = 0) ∧
    ∃ t, exec .decOpen s = .next t ∧ t = completed { s with dec := ⟨.active, 0, 0, ⟨0, 0, 0⟩, ⟨.ok, 0, 0⟩⟩ } .ok 0 0 0 ∧
      t.dec = State.reset.dec ∧ t.dec.stateWord = 0 ∧ t.dec.bufWord = 0

/-- R173-R175: ENC_WRITE: STREAM_CLOSED when CLOSED and the latched code when FAILED, both changing nothing else; the
first and second byte are held; the third completes the group, whose four characters the sink accepts. When the sink
answers ERR(info) to character k, characters 0..k−1 stay accepted, the ones after k are never offered, and the encoder
enters FAILED with (SINK_ERROR, info, 0), which the command reports. -/
def Obligations.EncWriteFollowsItsRule : Prop :=
  ∀ (s : State) (b : Byte), b = s.args.arg.extractLsb' 0 8 →
    (s.enc.mode = .closed → exec .encWrite s = .next (completed s .streamClosed 0 0 0)) ∧
    (s.enc.mode = .failed →
      exec .encWrite s = .next (completed s s.enc.latch.code 0 s.enc.latch.info0 s.enc.latch.info1)) ∧
    (s.enc.mode = .opened → s.enc.fill = 0 →
      exec .encWrite s =
        .next (completed { s with enc := { s.enc with fill := 1, hb := { s.enc.hb with b0 := b } } } .ok 0 0 0)) ∧
    (s.enc.mode = .opened → s.enc.fill = 1 →
      exec .encWrite s =
        .next (completed { s with enc := { s.enc with fill := 2, hb := { s.enc.hb with b1 := b } } } .ok 0 0 0)) ∧
    (∀ later, s.enc.mode = .opened → s.enc.fill = 2 → s.sink.putAnswers = acks 4 ++ later →
      exec .encWrite s =
        .next (completed (encEmptied (offered s (pack3 s.enc.hb.b0 s.enc.hb.b1 b).chars later) .opened) .ok 4 0 0)) ∧
    (∀ (k : Nat) (info : Word) (later : List (Nat × Answer)) (c : Byte),
      k < 4 → s.enc.mode = .opened → s.enc.fill = 2 → s.sink.putAnswers = acks k ++ (0, .err info) :: later →
      (pack3 s.enc.hb.b0 s.enc.hb.b1 b).chars[k]? = some c →
      exec .encWrite s =
        .next (completed
          (encFailed (offering (offered s ((pack3 s.enc.hb.b0 s.enc.hb.b1 b).chars.take k) later) c) info)
          .sinkError 0 info 0))

/-- R176, R177: ENC_CLOSE flushes one or two pending bytes with pads, or nothing, then closes the sink: RESULT is the
number of characters accepted, and the encoder is CLOSED; a SinkClose that fails puts it in FAILED, and a SinkPut that
fails does so before any SinkClose. In CLOSED it does nothing and issues no request; in FAILED it re-reports. -/
def Obligations.EncCloseFollowsItsRule : Prop :=
  ∀ (s : State) (cs : List Byte) (later : List (Nat × Answer)) (a : Answer) (laterClose : List (Nat × Answer)) (t : State),
    (s.enc.mode = .closed → exec .encClose s = .next (completed s .ok 0 0 0)) ∧
    (s.enc.mode = .failed →
      exec .encClose s = .next (completed s s.enc.latch.code 0 s.enc.latch.info0 s.enc.latch.info1)) ∧
    (s.enc.mode = .opened → s.sink.closeAnswers = (0, a) :: laterClose → s.sink.putAnswers = acks cs.length ++ later →
      (s.enc.fill = 0 ∧ cs = [] ∨ s.enc.fill = 1 ∧ cs = (pack1 s.enc.hb.b0).chars ∨
        s.enc.fill = 2 ∧ cs = (pack2 s.enc.hb.b0 s.enc.hb.b1).chars) →
      t = (offered s cs later).withSinkCloseAnswers laterClose →
      (a = .ack →
        exec .encClose s =
          .next (completed (encEmptied t.issueSinkClose .closed) .ok (BitVec.ofNat 32 cs.length) 0 0)) ∧
      (∀ info, a = .err info →
        exec .encClose s = .next (completed (encFailed t.issueSinkClose info) .sinkError 0 info 0))) ∧
    (∀ (k : Nat) (info : Word) (c : Byte),
      k < 4 → s.enc.mode = .opened → s.sink.putAnswers = acks k ++ (0, .err info) :: later →
      (s.enc.fill = 1 ∧ cs = (pack1 s.enc.hb.b0).chars ∨ s.enc.fill = 2 ∧ cs = (pack2 s.enc.hb.b0 s.enc.hb.b1).chars) →
      cs[k]? = some c →
      exec .encClose s =
        .next (completed (encFailed (offering (offered s (cs.take k) later) c) info) .sinkError 0 info 0))

/-- R173-R176, R283: how ENC_WRITE and ENC_CLOSE wait for the sink and go on. When the k-th character is not answered
yet, ENC_WRITE waits with BUSY = 1, characters 0..k−1 accepted and character k offered, and completes later as if the
answers had come at once. Whatever the sink answers and when, the characters of a group are offered as `Offers` says and
the sink is closed as `SinkCloses` says, from the command's first request on, and from each wait on once the answer is
one step away; a longer delay only counts down.
Answers with delays are the model's choice (assumption 13). -/
def Obligations.EncoderWaitsForTheSink : Prop :=
  (∀ (s : State) (k : Nat) (b : Byte) (cs : List Byte) (c : Byte) (later : List (Nat × Answer)),
    k < 4 → s.enc.mode = .opened → s.enc.fill = 2 → b = s.args.arg.extractLsb' 0 8 →
    cs = (pack3 s.enc.hb.b0 s.enc.hb.b1 b).chars → cs[k]? = some c →
    s.sink.putAnswers = acks k ++ later → (later = [] ∨ ∃ d a q, later = (d + 1, a) :: q) →
    exec .encWrite s =
      .next { offering (offered s (cs.take k) later) c with
        enc := { s.enc with fill := 3, hb := { s.enc.hb with b2 := b } }
        phase := .putting c (cs.drop (k + 1)) .write }) ∧
  (∀ (s : State) (c : Byte) (rest : List Byte) (later : List (Nat × Answer)),
    s.phase = .putting c rest .write → s.inputs = [] → s.sink.putAnswers = (1, .ack) :: (acks rest.length ++ later) →
    step s =
      .next (completed (encEmptied
        { offered s rest later with
          sink := { (offered s rest later).sink with accepted := s.sink.accepted ++ (c :: rest) } } s.enc.mode) .ok 4 0 0)) ∧
  (∀ (s : State) (b c : Byte) (cs : List Byte), s.enc.mode = .opened → b = s.args.arg.extractLsb' 0 8 →
    (s.enc.fill = 2 → (pack3 s.enc.hb.b0 s.enc.hb.b1 b).chars = c :: cs →
      ∃ u, exec .encWrite s = .next u ∧
        Offers .write c cs
          (offering { s with enc := { s.enc with fill := 3, hb := { s.enc.hb with b2 := b } } } c) u) ∧
    (s.enc.fill = 1 ∧ (pack1 s.enc.hb.b0).chars = c :: cs ∨
        s.enc.fill = 2 ∧ (pack2 s.enc.hb.b0 s.enc.hb.b1).chars = c :: cs →
      ∃ u, exec .encClose s = .next u ∧ Offers .close c cs (offering s c) u) ∧
    (s.enc.fill = 0 → ∃ u, exec .encClose s = .next u ∧ SinkCloses 0 (closingSink (encEmptied s .opened)) u)) ∧
  (∀ (s : State) (c : Byte) (cs : List Byte) (goal : EmitFor) (a : Answer) (d : Nat) (q : List (Nat × Answer)),
    s.phase = .putting c cs goal → s.inputs = [] →
    (s.sink.putAnswers = (d + 2, a) :: q → step s = .next (putAnswersLeft s ((d + 1, a) :: q))) ∧
    (s.sink.putAnswers = (1, a) :: q →
      ∃ u, step s = .next u ∧ Offers goal c cs (putAnswersLeft s ((0, a) :: q)) u)) ∧
  (∀ (s : State) (sent : Nat) (a : Answer) (d : Nat) (q : List (Nat × Answer)),
    s.phase = .closingSink sent → s.inputs = [] →
    (s.sink.closeAnswers = (d + 2, a) :: q → step s = .next (sinkCloseAnswersLeft s ((d + 1, a) :: q))) ∧
    (s.sink.closeAnswers = (1, a) :: q →
      ∃ u, step s = .next u ∧ SinkCloses sent (sinkCloseAnswersLeft s ((0, a) :: q)) u))

/-- R179: from OPEN with FILL = 0 and a sink that answers ACK to every request, one ENC_WRITE per byte and an ENC_CLOSE
give the sink exactly the text ENCODE gives, followed by one close request. -/
def Obligations.StreamEncodeEquivalence : Prop :=
  ∀ (s : State) (bs : List Byte) (q qc : List (Nat × Answer)),
    s.enc.mode = .opened → s.enc.fill = 0 → s.sink.putAnswers = acks (encodeText bs).length ++ q →
    s.sink.closeAnswers = (0, .ack) :: qc →
    ∃ t u, WritesAll bs s t ∧ exec .encClose t = .next u ∧ u.phase = .idle ∧ u.code = .ok ∧ u.enc.mode = .closed ∧
      u.sink.accepted = s.sink.accepted ++ encodeText bs ∧
      u.sink.log = s.sink.log ++ (encodeText bs).map SinkReq.put ++ [.close]

/-- R171: B64DP never offers the sink a character other than an ALPHA entry or 0x3D, and issues at most one close in a
step, after its characters. -/
def Obligations.SinkSeesOnlyAlphabetAndPad : Prop :=
  ∀ s t : State, MachineInv s → step s = .next t →
    ∃ cs : List Byte, cs.all sinkChar = true ∧
      (t.sink.log = s.sink.log ++ cs.map SinkReq.put ∨ t.sink.log = s.sink.log ++ cs.map SinkReq.put ++ [.close])

/-! ## The streaming decoder -/

/-- R194, R200: DEC_READ: STREAM_CLOSED, the latched code, END_OF_INPUT in EOI, or the buffered byte at the cursor, with
no source request. With an empty buffer it pulls a group: four reads, then the decoded group; END_OF_INPUT and EOI at EOF
before the first character; UNEXPECTED_END_OF_INPUT after 1 to 3 characters, INVALID_CHARACTER and SOURCE_ERROR, each
with the decoder in FAILED. -/
def Obligations.DecReadFollowsItsRule : Prop :=
  ∀ (s : State) (later : List (Nat × ReadAnswer)),
    (s.dec.mode = .closed → exec .decRead s = .next (completed s .streamClosed 0 0 0)) ∧
    (s.dec.mode = .failed →
      exec .decRead s = .next (completed s s.dec.latch.code 0 s.dec.latch.info0 s.dec.latch.info1)) ∧
    (s.dec.mode = .eoi → exec .decRead s = .next (completed s .endOfInput 0xFFFFFFFF#32 0 0)) ∧
    (∀ b, s.dec.mode = .active → s.dec.cursor < s.dec.valid →
      [s.dec.buf.b0, s.dec.buf.b1, s.dec.buf.b2][s.dec.cursor.val]? = some b →
      exec .decRead s =
        .next (completed { s with dec := { s.dec with cursor := s.dec.cursor + 1 } } .ok (b.setWidth 32) 0 0)) ∧
    (s.dec.mode = .active → s.dec.cursor = s.dec.valid →
      (∀ (g : TextGroup) (b : Buf3) (v : Nat), s.source.readAnswers = chars g.chars ++ later → groupDecode g true = .ok b v →
        exec .decRead s = .next (completed (decLoaded (readFrom s 4 later) b v 1) .ok (b.b0.setWidth 32) 0 0)) ∧
      (∀ (g : TextGroup) (c : Byte) (k : Nat), s.source.readAnswers = chars g.chars ++ later →
        groupDecode g true = .err c k →
        exec .decRead s = .next (decFailed (readFrom s 4 later) .invalidCharacter (c.setWidth 32) (BitVec.ofNat 32 k))) ∧
      (s.source.readAnswers = (0, .eof) :: later →
        exec .decRead s =
          .next (completed (decEmptied (readFrom s 1 later) .eoi) .endOfInput 0xFFFFFFFF#32 0 0)) ∧
      (∀ cs : List Byte, 1 ≤ cs.length → cs.length ≤ 3 → s.source.readAnswers = chars cs ++ (0, .eof) :: later →
        exec .decRead s =
          .next (decFailed (readFrom s (cs.length + 1) later) .unexpectedEndOfInput (BitVec.ofNat 32 cs.length) 0)) ∧
      (∀ (cs : List Byte) (info : Word), cs.length ≤ 3 → s.source.readAnswers = chars cs ++ (0, .err info) :: later →
        exec .decRead s = .next (decFailed (readFrom s (cs.length + 1) later) .sourceError info 0)))

/-- R191, R194, R200, R204, R213, R215, R283: how the decoder commands wait for the source and go on. With `k` characters
of a group received and the next not answered yet, DEC_READ waits with BUSY = 1 and the decoder unchanged, and completes
later as if the characters had come at once. Whatever the source answers and when, DEC_READ goes on as `Pulls` says from
its first request on; DEC_SKIP, DEC_AVAIL and DEC_CLOSE wait for a late answer, the decoder as their rules leave it then;
from each wait on, once the answer is one step away, the command goes on as `Pulls` or `Skips` says, or as R213 and R215
say; a longer delay only counts down. An answer to SrcSkip above what was asked is refused (assumption 7).
Answers with delays are the model's choice (assumption 13). -/
def Obligations.DecoderWaitsForTheSource : Prop :=
  (∀ (s : State) (cs : List Byte) (later : List (Nat × ReadAnswer)),
    s.dec.mode = .active → s.dec.cursor = s.dec.valid → cs.length ≤ 3 → s.source.readAnswers = chars cs ++ later →
    (later = [] ∨ ∃ d a q, later = (d + 1, a) :: q) →
    exec .decRead s = .next { readFrom s (cs.length + 1) later with phase := .pulling cs .read }) ∧
  (∀ (s : State) (cs rest : List Byte) (c : Byte) (g : TextGroup) (b : Buf3) (v : Nat) (later : List (Nat × ReadAnswer)),
    s.phase = .pulling cs .read → s.inputs = [] → g.chars = cs ++ c :: rest → groupDecode g true = .ok b v →
    s.source.readAnswers = (1, .char c) :: (chars rest ++ later) →
    step s = .next (completed (decLoaded (readFrom s rest.length later) b v 1) .ok (b.b0.setWidth 32) 0 0)) ∧
  (∀ s : State, s.dec.mode = .active →
    (s.dec.cursor = s.dec.valid → ∃ u, exec .decRead s = .next u ∧ Pulls .read [] (requesting s .read) u) ∧
    (∀ n k : Nat, (n : Int) = s.args.arg.toInt → s.dec.cursor ≤ s.dec.valid → k = s.dec.valid.val - s.dec.cursor.val →
      k + 3 ≤ n → Late s.source.skipAnswers →
      exec .decSkip s =
        .next { requesting { s with dec := { s.dec with cursor := s.dec.valid } } (.skip (4 * ((n - k) / 3))) with
          phase := .skipping (4 * ((n - k) / 3)) k (n - k) }) ∧
    (Late s.source.availAnswers → exec .decAvail s = .next { requesting s .avail with phase := .availing })) ∧
  (∀ s : State, s.dec.mode = .active ∨ s.dec.mode = .eoi → Late s.source.closeAnswers →
    exec .decClose s = .next { requesting s .close with phase := .closingSource }) ∧
  (∀ (s : State) (got : List Byte) (goal : PullFor) (a : ReadAnswer) (d : Nat) (q : List (Nat × ReadAnswer)),
    s.phase = .pulling got goal → got.length ≤ 3 → s.inputs = [] →
    (s.source.readAnswers = (d + 2, a) :: q → step s = .next (readAnswersLeft s ((d + 1, a) :: q))) ∧
    (s.source.readAnswers = (1, a) :: q →
      ∃ u, step s = .next u ∧ Pulls goal got (readAnswersLeft s ((0, a) :: q)) u)) ∧
  (∀ (s : State) (asked total left : Nat) (a : SkipAnswer) (d : Nat) (q : List (Nat × SkipAnswer)),
    s.phase = .skipping asked total left → asked = 4 * (left / 3) → s.inputs = [] →
    (s.source.skipAnswers = (d + 2, a) :: q → step s = .next (skipAnswersLeft s ((d + 1, a) :: q))) ∧
    (s.source.skipAnswers = (1, a) :: q → (∀ w : Word, a = .skipped w → w.toNat ≤ asked) →
      ∃ u, step s = .next u ∧ Skips asked total left (skipAnswersLeft s ((0, a) :: q)) u) ∧
    (∀ w : Word, s.source.skipAnswers = (1, .skipped w) :: q → asked < w.toNat →
      step s = .refused (.skipAnswerTooLarge asked w.toNat))) ∧
  (∀ (s : State) (a : AvailAnswer) (d : Nat) (q : List (Nat × AvailAnswer)),
    s.phase = .availing → s.dec.cursor ≤ s.dec.valid → s.inputs = [] →
    (s.source.availAnswers = (d + 2, a) :: q → step s = .next (availAnswersLeft s ((d + 1, a) :: q))) ∧
    (∀ c : Word, s.source.availAnswers = (1, .count c) :: q →
      ∃ r : Word, (r.toNat : Int) = (s.dec.valid.val : Int) - s.dec.cursor.val + c.toNat / 4 * 3 ∧
        step s = .next (completed (availAnswersLeft s q) .ok r 0 0)) ∧
    (∀ info : Word, s.source.availAnswers = (1, .err info) :: q →
      step s = .next (decFailed (availAnswersLeft s q) .sourceError info 0))) ∧
  (∀ (s : State) (a : Answer) (d : Nat) (q : List (Nat × Answer)), s.phase = .closingSource → s.inputs = [] →
    (s.source.closeAnswers = (d + 2, a) :: q → step s = .next (sourceCloseAnswersLeft s ((d + 1, a) :: q))) ∧
    (s.source.closeAnswers = (1, .ack) :: q →
      step s = .next (completed (decEmptied (sourceCloseAnswersLeft s q) .closed) .ok 0 0 0)) ∧
    (∀ info : Word, s.source.closeAnswers = (1, .err info) :: q →
      step s = .next (decFailed (sourceCloseAnswersLeft s q) .sourceError info 0)))

/-- R202: from a fresh decoder and a source that gives the text of b and then EOF, one DEC_READ per byte returns the
bytes of b in order, and the next DEC_READ gives END_OF_INPUT. -/
def Obligations.StreamReadEquivalence : Prop :=
  ∀ (s : State) (bs : List Byte) (q : List (Nat × ReadAnswer)),
    s.dec = ⟨.active, 0, 0, ⟨0, 0, 0⟩, ⟨.ok, 0, 0⟩⟩ →
    s.source.readAnswers = chars (encodeText bs) ++ (0, .eof) :: q →
    ∃ t, ReadsAll bs s t ∧ EndsNow t

/-- R196, R204-R206: DEC_SKIP without a source request: STREAM_CLOSED, the latched code, CANNOT_SKIP for n < 0 in
ACTIVE and EOI, 0 in EOI, and a request met from the buffer. -/
def Obligations.DecSkipWithoutTheSource : Prop :=
  ∀ (s : State) (n : Int), n = s.args.arg.toInt →
    (s.dec.mode = .closed → exec .decSkip s = .next (completed s .streamClosed 0 0 0)) ∧
    (s.dec.mode = .failed →
      exec .decSkip s = .next (completed s s.dec.latch.code 0 s.dec.latch.info0 s.dec.latch.info1)) ∧
    (s.dec.mode = .eoi ∨ s.dec.mode = .active → n < 0 → exec .decSkip s = .next (completed s .cannotSkip 0 0 0)) ∧
    (s.dec.mode = .eoi → 0 ≤ n → exec .decSkip s = .next (completed s .ok 0 0 0)) ∧
    (s.dec.mode = .active → 0 ≤ n → s.dec.cursor.val + n ≤ s.dec.valid.val →
      ∃ c : Fin 4, (c.val : Int) = s.dec.cursor.val + n ∧
        exec .decSkip s = .next (completed { s with dec := { s.dec with cursor := c } } .ok s.args.arg 0 0))

/-- R207-R210: the fast path of DEC_SKIP: after the buffered bytes, exactly one SrcSkip(4q); a failed skip, a skip that
ends inside a group, a short skip at a group boundary, a complete skip with no byte left, one with a remainder that the
next group meets (R211). The skipped characters are not read and not validated. And, whatever the source answers next,
a complete skip with a remainder goes on with step 3 of DEC_SKIP as `Pulls` says: a short group and another pull, EOF, a
failing or a late pull. -/
def Obligations.DecSkipFastPath : Prop :=
  ∀ (s t : State) (n k q : Nat) (a : SkipAnswer) (later : List (Nat × SkipAnswer)),
    (n : Int) = s.args.arg.toInt → s.dec.mode = .active → s.dec.cursor ≤ s.dec.valid →
    k = s.dec.valid.val - s.dec.cursor.val → k ≤ n → q = (n - k) / 3 → 0 < q → s.source.skipAnswers = (0, a) :: later →
    t = { s with
      dec := { s.dec with cursor := s.dec.valid }
      source := { s.source with skipAnswers := later, log := s.source.log ++ [.skip (4 * q)] } } →
    (∀ info, a = .err info → exec .decSkip s = .next (decFailed t .sourceError info 0)) ∧
    (∀ w : Word, a = .skipped w → w.toNat ≤ 4 * q → w.toNat % 4 ≠ 0 →
      exec .decSkip s = .next (decFailed t .unexpectedEndOfInput (BitVec.ofNat 32 (w.toNat % 4)) 0)) ∧
    (∀ w : Word, a = .skipped w → w.toNat < 4 * q → w.toNat % 4 = 0 →
      exec .decSkip s = .next (completed (decEmptied t .eoi) .ok (BitVec.ofNat 32 (k + w.toNat / 4 * 3)) 0 0)) ∧
    (∀ w : Word, a = .skipped w → w.toNat = 4 * q → (n - k) % 3 = 0 →
      exec .decSkip s = .next (completed t .ok s.args.arg 0 0)) ∧
    (∀ (w : Word) (g : TextGroup) (b : Buf3) (v : Nat) (rest : List (Nat × ReadAnswer)),
      a = .skipped w → w.toNat = 4 * q → (n - k) % 3 ≠ 0 → s.source.readAnswers = chars g.chars ++ rest →
      groupDecode g true = .ok b v → (n - k) % 3 ≤ v →
      exec .decSkip s =
        .next (completed (decLoaded (readFrom t 4 rest) b v ((n - k) % 3)) .ok s.args.arg 0 0)) ∧
    (∀ w : Word, a = .skipped w → w.toNat = 4 * q → (n - k) % 3 ≠ 0 →
      ∃ u, exec .decSkip s = .next u ∧ Pulls (.skip (k + 3 * q) ((n - k) % 3)) [] (requesting t .read) u)

/-- R211: step 3 of DEC_SKIP on its own (fewer than 3 bytes left after the buffer): a group with enough bytes meets the
request, a shorter one leads to another pull, EOF before a group ends it with the count so far and EOI, and a pull fails
as in DEC_READ. And, whatever the source answers, the command goes on as `Pulls` says: a second pull can fail, end or
wait like the first. -/
def Obligations.DecSkipPullsTheRemainder : Prop :=
  ∀ (s t : State) (n k r : Nat) (later : List (Nat × ReadAnswer)),
    (n : Int) = s.args.arg.toInt → s.dec.mode = .active → s.dec.cursor ≤ s.dec.valid →
    k = s.dec.valid.val - s.dec.cursor.val → n = k + r → 1 ≤ r → r ≤ 2 →
    t = { s with dec := { s.dec with cursor := s.dec.valid } } →
    (∀ (g : TextGroup) (b : Buf3) (v : Nat), s.source.readAnswers = chars g.chars ++ later → groupDecode g true = .ok b v →
      r ≤ v → exec .decSkip s = .next (completed (decLoaded (readFrom t 4 later) b v r) .ok s.args.arg 0 0)) ∧
    (∀ (g g' : TextGroup) (b b' : Buf3) (v v' : Nat), s.source.readAnswers = chars (g.chars ++ g'.chars) ++ later →
      groupDecode g true = .ok b v → v < r → groupDecode g' true = .ok b' v' →
      exec .decSkip s = .next (completed (decLoaded (readFrom t 8 later) b' v' (r - v)) .ok s.args.arg 0 0)) ∧
    (s.source.readAnswers = (0, .eof) :: later →
      exec .decSkip s = .next (completed (decEmptied (readFrom t 1 later) .eoi) .ok (BitVec.ofNat 32 k) 0 0)) ∧
    (∀ (g : TextGroup) (b : Buf3) (v : Nat), s.source.readAnswers = chars g.chars ++ (0, .eof) :: later →
      groupDecode g true = .ok b v → v < r →
      exec .decSkip s = .next (completed (decEmptied (readFrom t 5 later) .eoi) .ok (BitVec.ofNat 32 (k + v)) 0 0)) ∧
    (∀ (g : TextGroup) (c : Byte) (pos : Nat), s.source.readAnswers = chars g.chars ++ later →
      groupDecode g true = .err c pos →
      exec .decSkip s =
        .next (decFailed (readFrom t 4 later) .invalidCharacter (c.setWidth 32) (BitVec.ofNat 32 pos))) ∧
    (∀ cs : List Byte, 1 ≤ cs.length → cs.length ≤ 3 → s.source.readAnswers = chars cs ++ (0, .eof) :: later →
      exec .decSkip s =
        .next (decFailed (readFrom t (cs.length + 1) later) .unexpectedEndOfInput (BitVec.ofNat 32 cs.length) 0)) ∧
    (∀ (cs : List Byte) (info : Word), cs.length ≤ 3 → s.source.readAnswers = chars cs ++ (0, .err info) :: later →
      exec .decSkip s = .next (decFailed (readFrom t (cs.length + 1) later) .sourceError info 0)) ∧
    ∃ u, exec .decSkip s = .next u ∧ Pulls (.skip k r) [] (requesting t .read) u

/-- R212: the skip count law. The source holds exactly the text of b, then EOF: its one skip discards as many of the
characters asked for as there are, and its reads give what comes after them. Case (a): RESULT = min(n, N) and the
DEC_READs that follow return the rest of b; case (b): RESULT = 3G, and the next DEC_READ gives END_OF_INPUT. -/
def Obligations.SkipCountLaw : Prop :=
  ∀ (s : State) (bs : List Byte) (n G : Nat) (qs : List (Nat × SkipAnswer)) (q : List (Nat × ReadAnswer)),
    s.dec = ⟨.active, 0, 0, ⟨0, 0, 0⟩, ⟨.ok, 0, 0⟩⟩ → (n : Int) = s.args.arg.toInt → G = (bs.length + 2) / 3 →
    s.source.skipAnswers =
      (0, .skipped (BitVec.ofNat 32 (min (4 * (n / 3)) (encodeText bs).length))) :: qs →
    s.source.readAnswers =
      chars ((encodeText bs).drop (4 * (n / 3))) ++ (0, .eof) :: q →
    ∃ t, exec .decSkip s = .next t ∧ t.phase = .idle ∧ t.code = .ok ∧
      (bs.length % 3 = 0 ∨ n < 3 * G →
        t.result.toNat = min n bs.length ∧ ∃ u, ReadsAll (bs.drop n) t u ∧ EndsNow u) ∧
      (bs.length % 3 ≠ 0 → 3 * G ≤ n → t.result.toNat = 3 * G ∧ EndsNow t)

/-- R196, R197, R213: DEC_AVAIL: the unread buffered bytes plus floor(count/4)·3, the decoder unchanged; 0 in EOI with
no request; SOURCE_ERROR puts the decoder in FAILED; STREAM_CLOSED and the latched code as in R196. -/
def Obligations.DecAvailFollowsItsRule : Prop :=
  ∀ (s t : State) (a : AvailAnswer) (later : List (Nat × AvailAnswer)),
    (s.dec.mode = .closed → exec .decAvail s = .next (completed s .streamClosed 0 0 0)) ∧
    (s.dec.mode = .failed →
      exec .decAvail s = .next (completed s s.dec.latch.code 0 s.dec.latch.info0 s.dec.latch.info1)) ∧
    (s.dec.mode = .eoi → exec .decAvail s = .next (completed s .ok 0 0 0)) ∧
    (s.dec.mode = .active → s.dec.cursor ≤ s.dec.valid → s.source.availAnswers = (0, a) :: later →
      t = { s with source := { s.source with availAnswers := later, log := s.source.log ++ [.avail] } } →
      (∀ c : Word, a = .count c →
        ∃ r : Word, (r.toNat : Int) = (s.dec.valid.val : Int) - s.dec.cursor.val + c.toNat / 4 * 3 ∧
          exec .decAvail s = .next (completed t .ok r 0 0)) ∧
      (∀ info, a = .err info → exec .decAvail s = .next (decFailed t .sourceError info 0)))

/-- R215: DEC_CLOSE issues SrcClose in ACTIVE and EOI and, on ACK, closes the decoder and discards its buffer; on ERR
the decoder fails; in CLOSED it does nothing; in FAILED it re-reports. -/
def Obligations.DecCloseFollowsItsRule : Prop :=
  ∀ (s t : State) (a : Answer) (later : List (Nat × Answer)),
    (s.dec.mode = .closed → exec .decClose s = .next (completed s .ok 0 0 0)) ∧
    (s.dec.mode = .failed →
      exec .decClose s = .next (completed s s.dec.latch.code 0 s.dec.latch.info0 s.dec.latch.info1)) ∧
    (s.dec.mode = .active ∨ s.dec.mode = .eoi → s.source.closeAnswers = (0, a) :: later →
      t = { s with source := { s.source with closeAnswers := later, log := s.source.log ++ [.close] } } →
      (a = .ack → exec .decClose s = .next (completed (decEmptied t .closed) .ok 0 0 0)) ∧
      (∀ info, a = .err info → exec .decClose s = .next (decFailed t .sourceError info 0)))

/-! ## Rules of the whole machine -/

/-- R21: no command writes an argument register; a command changes neither the parameters nor what the host has read or
will do. -/
def Obligations.CommandsNeverWriteArguments : Prop :=
  ∀ (i : Instr) (s t : State), exec i s = .next t →
    t.args = s.args ∧ t.params = s.params ∧ t.inputs = s.inputs ∧ t.latency = s.latency ∧ t.hostLog = s.hostLog ∧
      t.ovr = s.ovr

/-- R69, R180, R216, R244: an encoder command leaves DMEM, the decoder and the source as they are; a decoder command
leaves DMEM, the encoder and the sink; every other command leaves both adapters and both ports. -/
def Obligations.CommandFamiliesStaySeparate : Prop :=
  ∀ (i : Instr) (s t : State), exec i s = .next t →
    (i ∈ [Instr.encOpen, .encWrite, .encClose] → t.dmem = s.dmem ∧ t.dec = s.dec ∧ t.source = s.source) ∧
    (i ∈ [Instr.decOpen, .decRead, .decSkip, .decAvail, .decClose] →
      t.dmem = s.dmem ∧ t.enc = s.enc ∧ t.sink = s.sink) ∧
    (i ∈ [Instr.nop, .encode, .decode, .decodeAlloc, .validate, .tblAlpha, .tblInv] →
      t.enc = s.enc ∧ t.dec = s.dec ∧ t.sink = s.sink ∧ t.source = s.source) ∧
    (i ∉ [Instr.encode, .decode, .decodeAlloc] → t.dmem = s.dmem)

/-- R232: a command that does not wait for a port has completed: BUSY 0, DONE 1, RESULT 0 with an error code, INFO0 and
INFO1 0 with an informational one; only the six port commands can wait (R239). -/
def Obligations.CommandsCompleteOrWaitForAPort : Prop :=
  ∀ (i : Instr) (s t : State), s.enc.latchWf = true → s.dec.latchWf = true → exec i s = .next t →
    (t.phase = .idle ∧ t.cmdWord = none ∧ t.done = true ∧ (t.code.isError = true → t.result = 0) ∧
        (t.code.isError = false → t.info0 = 0 ∧ t.info1 = 0)) ∨
      (t.phase.waiting = true ∧ i ∈ [Instr.encWrite, .encClose, .decRead, .decSkip, .decAvail, .decClose])

/-- R239: at most 5 port requests for ENC_WRITE and ENC_CLOSE, 4 reads for DEC_READ, 1 skip plus 8 reads for DEC_SKIP,
1 request for DEC_AVAIL and DEC_CLOSE, none for the other commands, when the answers come at once. -/
def Obligations.PortRequestsAreBounded : Prop :=
  ∀ (i : Instr) (s t : State), exec i s = .next t →
    s.requests ≤ t.requests ∧
    (i ∈ [Instr.encWrite, .encClose] → t.requests ≤ s.requests + 5) ∧
    (i = .decRead → t.requests ≤ s.requests + 4) ∧
    (i = .decSkip → t.requests ≤ s.requests + 9) ∧
    (i ∈ [Instr.decAvail, .decClose] → t.requests ≤ s.requests + 1) ∧
    (i ∉ [Instr.encWrite, .encClose, .decRead, .decSkip, .decAvail, .decClose] → t.requests = s.requests)

/-- R246: while an adapter is FAILED each of its data commands re-reports the latched code and info with RESULT 0,
issuing no request and changing no adapter state; and a step that changes a failed adapter is its OPEN command or reset,
and leaves it in the reset state. -/
def Obligations.FailedAdaptersReReportUntilOpened : Prop :=
  (∀ (i : Instr) (s : State),
    (s.enc.mode = .failed → i ∈ [Instr.encWrite, .encClose] →
      exec i s = .next (completed s s.enc.latch.code 0 s.enc.latch.info0 s.enc.latch.info1)) ∧
    (s.dec.mode = .failed → i ∈ [Instr.decRead, .decSkip, .decAvail, .decClose] →
      exec i s = .next (completed s s.dec.latch.code 0 s.dec.latch.info0 s.dec.latch.info1))) ∧
  ∀ s t : State, MachineInv s → step s = .next t →
    (s.enc.mode = .failed → t.enc = s.enc ∨
      (t.enc = ⟨.opened, 0, ⟨0, 0, 0⟩, ⟨.ok, 0, 0⟩⟩ ∧
        (s.cmdWord = some 0x10#32 ∨ s.inputs.head? = some .reset ∨ ∃ rest, writes s .cmd 0x10#32 rest))) ∧
    (s.dec.mode = .failed → t.dec = s.dec ∨
      (t.dec = ⟨.active, 0, 0, ⟨0, 0, 0⟩, ⟨.ok, 0, 0⟩⟩ ∧
        (s.cmdWord = some 0x20#32 ∨ s.inputs.head? = some .reset ∨ ∃ rest, writes s .cmd 0x20#32 rest)))

/-- The invariant holds right after reset. -/
def Obligations.InvariantHoldsAtReset : Prop := MachineInv State.reset

/-- Every step keeps the invariant: R41, R43, R45, R47, the canonical memory inside DMEM, the latched word, DONE = 0
while BUSY, and the phase of a waiting engine. -/
def Obligations.EveryStepKeepsTheInvariant : Prop :=
  ∀ s t : State, MachineInv s → step s = .next t → MachineInv t

/-- The two stops inside a command, both the model's own: ENC_WRITE with FILL = 3, which R41 rules out between commands
(assumption 8), and a source that skips more than it was asked (assumption 7, U11: "a model gives the source no such
move"). -/
def Obligations.CommandsStopByNameInTwoPlaces : Prop :=
  (∀ s : State, s.enc.mode = .opened → s.enc.fill = 3 → exec .encWrite s = .fault .encoderBufferFull) ∧
  (∀ (s : State) (n k q : Nat) (w : Word) (later : List (Nat × SkipAnswer)),
    (n : Int) = s.args.arg.toInt → s.dec.mode = .active → s.dec.cursor ≤ s.dec.valid →
    k = s.dec.valid.val - s.dec.cursor.val → k ≤ n → q = (n - k) / 3 → 0 < q →
    s.source.skipAnswers = (0, .skipped w) :: later → 4 * q < w.toNat →
    exec .decSkip s = .refused (.skipAnswerTooLarge (4 * q) w.toNat))

/-- A step stops only outside the interface: a host access to a DMEM address that does not exist, a host access that
touches the CSR window and is not an aligned 32-bit one, or DEC_SKIP with a source that answers its SrcSkip with more than
was asked.
The stops are the model's choice (assumptions 7, 9, 10). -/
def Obligations.StepStopsOnlyOutsideTheInterface : Prop :=
  ∀ s : State, MachineInv s →
    (∀ f, step s = .fault f → ∃ a, f = .noSuchDmemAddress a ∧ 2 ^ s.params.dmemAw ≤ a ∧
      ∃ rest, s.inputs = .dmemRead a :: rest ∨ ∃ v, s.inputs = .dmemWrite a v :: rest) ∧
    (∀ r, step s = .refused r →
      (∃ addr width rest, r = .csrAccessShape addr width ∧
        (s.inputs = .csrRead addr width :: rest ∨ ∃ v, s.inputs = .csrWrite addr width v :: rest) ∧
        s.params.csrBase < addr + width.bytes ∧ addr < s.params.csrBase + 256 ∧
        (width ≠ .word ∨ addr < s.params.csrBase ∨ (addr - s.params.csrBase) % 4 ≠ 0)) ∨
      (∃ (asked : Nat) (w : Word) (d : Nat) (later : List (Nat × SkipAnswer)),
        r = .skipAnswerTooLarge asked w.toNat ∧ asked < w.toNat ∧ s.source.skipAnswers = (d, .skipped w) :: later ∧
        d ≤ 1 ∧ (s.cmdWord = some 0x22#32 ∨ ∃ rest, writes s .cmd 0x22#32 rest)))
end

