-- ==== Sys2Proof/Laws/Codec.lean ====
section
/-! SUPPORT. The laws of the ROMs and of the packing unit (R107, R110, R115-R119). -/

namespace Sys2Proof.Machine

/-- R107 (a): the inverse look-up undoes ALPHA. -/
@[simp] theorem indexOf_alpha : ∀ s : Sextet, indexOf (alpha s) = some s := by decide +kernel

/-- ALPHA undoes the inverse look-up. -/
theorem alpha_of_indexOf : ∀ c : Byte, ∀ s ∈ indexOf c, alpha s = c := by decide +kernel

@[simp] theorem alpha_le_invTop : ∀ s : Sextet, (alpha s).toNat ≤ invTop := by decide +kernel

/-- The pad is outside the alphabet (R101). -/
theorem alpha_ne_pad : ∀ s : Sextet, alpha s ≠ padCode := by decide +kernel

@[simp] theorem isAlpha_alpha : ∀ s : Sextet, isAlpha (alpha s) = true := by decide +kernel

@[simp] theorem isAlpha_pad : isAlpha padCode = false := by decide +kernel

/-- A character of the alphabet is ALPHA of some index. -/
theorem exists_alpha_of_isAlpha {c : Byte} (h : isAlpha c = true) : ∃ s : Sextet, alpha s = c := by
  have key : ∀ c : Byte, isAlpha c = true → (indexOf c).isSome = true := by decide +kernel
  obtain ⟨s, hs⟩ := Option.isSome_iff_exists.1 (key c h)
  exact ⟨s, alpha_of_indexOf c s hs⟩

/-- Every look-up of an alphabet character yields the entry of its index (R103). -/
@[simp] theorem invLookup_alpha (f : InvEntry → InvEntry) (s : Sextet) :
    invLookup f (alpha s) = f (s.setWidth 9) := by
  simp [invLookup]

@[simp] theorem alpha_inj {s t : Sextet} : alpha s = alpha t ↔ s = t := by
  refine ⟨fun h => ?_, fun h => by rw [h]⟩
  have := indexOf_alpha t
  rw [← h, indexOf_alpha s] at this
  exact Option.some.inj this

/-- R110: a contribution in bits [5:4] and one in bits [3:0] add without carry, so their sum is their OR. -/
theorem add_eq_or_low4 : ∀ a b : Sextet, a &&& 0xF#6 = 0 → b.toNat < 16 → a + b = a ||| b := by decide +kernel

/-- R110: a contribution in bits [5:2] and one in bits [1:0] add without carry, so their sum is their OR. -/
theorem add_eq_or_low2 : ∀ a b : Sextet, a &&& 0x3#6 = 0 → b.toNat < 4 → a + b = a ||| b := by decide +kernel

theorem fwd1_low4 : ∀ b : Byte, fwd1 b &&& 0xF#6 = 0 := by decide +kernel

theorem fwd2_low2 : ∀ b : Byte, fwd2 b &&& 0x3#6 = 0 := by decide +kernel

theorem fwd0_shift2_lt : ∀ b : Byte, (fwd0 b >>> 2).toNat < 16 := by decide +kernel

theorem fwd0_shift4_lt : ∀ b : Byte, (fwd0 b >>> 4).toNat < 4 := by decide +kernel

/-- The three bytes two pairs of sextets make: what GroupDecode computes from four indexes (R114). -/
def joinSextets (s0 s1 s2 s3 : Sextet) : Buf3 :=
  { b0 := (s0.setWidth 9 <<< 2 + s1.setWidth 9 >>> 4).setWidth 8
    b1 := ((s1.setWidth 9 &&& 0xF#9) <<< 4 + s2.setWidth 9 >>> 2).setWidth 8
    b2 := ((s2.setWidth 9 &&& 0x3#9) <<< 6 + s3.setWidth 9).setWidth 8 }

/-- Every result of the alphabet check, position by position (R116). -/
theorem firstInvalid_none_iff (g : TextGroup) (p : Nat) (hp : p ≤ 2) :
    firstInvalid g p = none ↔
      isAlpha g.c0 = true ∧ isAlpha g.c1 = true ∧ (p ≤ 1 → isAlpha g.c2 = true) ∧ (p = 0 → isAlpha g.c3 = true) := by
  have : p = 0 ∨ p = 1 ∨ p = 2 := by omega
  rcases this with rfl | rfl | rfl <;> simp [firstInvalid]

theorem padCount_le (g : TextGroup) (final : Bool) : padCount g final ≤ 2 := by
  unfold padCount
  split
  · split <;> omega
  · omega

/-- A group that decodes decodes to 3 − padCount bytes, 1 to 3 of them (R114, R198). -/
theorem groupDecode_valid {g : TextGroup} {final : Bool} {b : Buf3} {v : Nat} (h : groupDecode g final = .ok b v) :
    v = 3 - padCount g final := by
  unfold groupDecode at h
  simp only at h
  split at h
  · cases h
  · split at h
    · cases h
    · split at h
      · cases h
      · cases h; rfl

/-- VALID is 1, 2 or 3 after a group is loaded (R198). -/
theorem groupDecode_valid_range {g : TextGroup} {final : Bool} {b : Buf3} {v : Nat} (h : groupDecode g final = .ok b v) :
    1 ≤ v ∧ v ≤ 3 := by
  have := groupDecode_valid h
  have := padCount_le g final
  omega

/-- The bytes past validCount are 0 (R118). -/
theorem groupDecode_zero_past_valid {g : TextGroup} {final : Bool} {b : Buf3} {v : Nat}
    (h : groupDecode g final = .ok b v) : (v ≤ 1 → b.b1 = 0) ∧ (v ≤ 2 → b.b2 = 0) := by
  have hv := groupDecode_valid h
  have hp := padCount_le g final
  unfold groupDecode at h
  simp only at h
  split at h
  · cases h
  · split at h
    · cases h
    · split at h
      · cases h
      · cases h
        constructor
        · intro h1
          have : padCount g final = 2 := by omega
          simp [this]
        · intro h1
          have : 1 ≤ padCount g final := by omega
          simp [this]

/-- A group of four alphabet characters decodes to the bytes of its indexes (R114). -/
theorem groupDecode_alpha4 (s0 s1 s2 s3 : Sextet) (final : Bool) :
    groupDecode ⟨alpha s0, alpha s1, alpha s2, alpha s3⟩ final = .ok (joinSextets s0 s1 s2 s3) 3 := by
  have hp : padCount ⟨alpha s0, alpha s1, alpha s2, alpha s3⟩ final = 0 := by
    simp [padCount, alpha_ne_pad]
  have hf := (firstInvalid_none_iff ⟨alpha s0, alpha s1, alpha s2, alpha s3⟩ 0 (by omega)).2 (by simp)
  simp [groupDecode, hp, hf, joinSextets, inv0, inv1, inv2, inv3, inv4, inv5]

/-- A group of three alphabet characters and a pad (R114, R117). -/
theorem groupDecode_alpha3 (s0 s1 s2 : Sextet) (hz : s2 &&& 0x3#6 = 0) :
    groupDecode ⟨alpha s0, alpha s1, alpha s2, padCode⟩ true =
      .ok { joinSextets s0 s1 s2 0 with b2 := 0 } 2 := by
  have hp : padCount ⟨alpha s0, alpha s1, alpha s2, padCode⟩ true = 1 := by
    simp [padCount, alpha_ne_pad]
  have hf := (firstInvalid_none_iff ⟨alpha s0, alpha s1, alpha s2, padCode⟩ 1 (by omega)).2 (by simp)
  have hz' : ∀ s : Sextet, s &&& 0x3#6 = 0 → (s.setWidth 9 &&& 0x3#9) <<< 6 = 0 := by decide +kernel
  simp [groupDecode, hp, hf, joinSextets, inv0, inv1, inv2, inv3, inv4, hz' s2 hz]

/-- A group of two alphabet characters and two pads (R114, R117). -/
theorem groupDecode_alpha2 (s0 s1 : Sextet) (hz : s1 &&& 0xF#6 = 0) :
    groupDecode ⟨alpha s0, alpha s1, padCode, padCode⟩ true =
      .ok { joinSextets s0 s1 0 0 with b1 := 0, b2 := 0 } 1 := by
  have hp : padCount ⟨alpha s0, alpha s1, padCode, padCode⟩ true = 2 := by
    simp [padCount]
  have hf := (firstInvalid_none_iff ⟨alpha s0, alpha s1, padCode, padCode⟩ 2 (by omega)).2 (by simp)
  have hz' : ∀ s : Sextet, s &&& 0xF#6 = 0 → (s.setWidth 9 &&& 0xF#9) <<< 4 = 0 := by decide +kernel
  simp [groupDecode, hp, hf, joinSextets, inv0, inv1, inv2, hz' s1 hz]

/-- Byte 0 of the packed group (R111, R114). -/
theorem join_byte0 : ∀ (b0 : Byte) (t : Sextet), t.toNat < 16 →
    (((fwd0 b0).setWidth 9 <<< 2 + (fwd1 b0 + t).setWidth 9 >>> 4).setWidth 8 : Byte) = b0 := by decide +kernel

/-- Byte 1 of the packed group (R111, R114), from its own two contributions. -/
theorem join_byte1 (b0 b1 : Byte) (t : Sextet) (ht : t.toNat < 4) :
    ((((fwd1 b0 + (fwd0 b1 >>> 2)).setWidth 9 &&& 0xF#9) <<< 4 + (fwd2 b1 + t).setWidth 9 >>> 2).setWidth 8 : Byte) =
      b1 := by
  have low : ∀ a b : Sextet, a &&& 0xF#6 = 0 → b.toNat < 16 →
      ((a + b).setWidth 9 &&& 0xF#9) = b.setWidth 9 := by decide +kernel
  have high : ∀ (b : Byte) (t : Sextet), t.toNat < 4 →
      (((fwd0 b >>> 2).setWidth 9 <<< 4 + (fwd2 b + t).setWidth 9 >>> 2).setWidth 8 : Byte) = b := by decide +kernel
  rw [low _ _ (fwd1_low4 b0) (fwd0_shift2_lt b1)]
  exact high b1 t ht

/-- Byte 2 of the packed group (R111, R114), from its own two contributions. -/
theorem join_byte2 (b1 b2 : Byte) :
    ((((fwd2 b1 + (fwd0 b2 >>> 4)).setWidth 9 &&& 0x3#9) <<< 6 + (fwd3 b2).setWidth 9).setWidth 8 : Byte) = b2 := by
  have low : ∀ a b : Sextet, a &&& 0x3#6 = 0 → b.toNat < 4 →
      ((a + b).setWidth 9 &&& 0x3#9) = b.setWidth 9 := by decide +kernel
  have high : ∀ b : Byte,
      (((fwd0 b >>> 4).setWidth 9 <<< 6 + (fwd3 b).setWidth 9).setWidth 8 : Byte) = b := by decide +kernel
  rw [low _ _ (fwd2_low2 b1) (fwd0_shift4_lt b2)]
  exact high b2

/-- The four indexes of a packed group give its three bytes back (R119). -/
theorem joinSextets_fwd (b0 b1 b2 : Byte) :
    joinSextets (fwd0 b0) (fwd1 b0 + (fwd0 b1 >>> 2)) (fwd2 b1 + (fwd0 b2 >>> 4)) (fwd3 b2) = ⟨b0, b1, b2⟩ := by
  simp only [joinSextets, join_byte0 b0 _ (fwd0_shift2_lt b1), join_byte1 b0 b1 _ (fwd0_shift4_lt b2), join_byte2]

end Sys2Proof.Machine
end

