-- ==== Sys2Proof/Laws/Memory.lean ====
section
/-! SUPPORT. The laws of DMEM: read after write, the canonical form, runs of bytes. -/

namespace Sys2Proof.Machine

@[simp] theorem Memory.read_nil (a : Nat) : Memory.read [] a = Memory.unlisted := rfl

/-- The canonical form in the words proofs use: rising addresses, no unlisted value. -/
theorem Memory.wf_iff (m : Memory) :
    Memory.wf m = true ↔
      List.Pairwise (fun (x y : Host.Cell) => x.1 < y.1) m ∧ ∀ c ∈ m, c.2 ≠ Memory.unlisted := by
  simp [Memory.wf]

theorem Memory.wf_nil : Memory.wf [] = true := rfl

theorem Memory.wf_tail {c : Host.Cell} {m : Memory} (h : Memory.wf (c :: m) = true) : Memory.wf m = true := by
  rw [Memory.wf_iff] at *
  exact ⟨(List.pairwise_cons.1 h.1).2, fun x hx => h.2 x (List.mem_cons_of_mem _ hx)⟩

/-- Below every listed address nothing is listed. -/
theorem Memory.read_of_below {m : Memory} {a : Nat} (h : ∀ c ∈ m, a < c.1) :
    Memory.read m a = Memory.unlisted := by
  induction m with
  | nil => rfl
  | cons c m ih =>
    obtain ⟨k, v⟩ := c
    have hk : a < k := h (k, v) (by simp)
    simp only [Memory.read, if_neg (by omega : ¬ k = a)]
    exact ih fun c hc => h c (by simp [hc])

/-- Read after write, at the address written. -/
theorem Memory.read_write_same {m : Memory} (h : Memory.wf m = true) (a : Nat) (v : Byte) :
    Memory.read (Memory.write m a v) a = v := by
  induction m with
  | nil =>
    by_cases hv : v = Memory.unlisted
    · simp [Memory.write, hv]
    · simp [Memory.write, hv, Memory.read]
  | cons c m ih =>
    obtain ⟨k, x⟩ := c
    have hlow : ∀ c ∈ m, k < c.1 := fun c hc => (List.pairwise_cons.1 ((Memory.wf_iff _).1 h).1).1 c hc
    simp only [Memory.write]
    split
    · rename_i hak
      split
      · rename_i hv
        rw [hv]
        apply Memory.read_of_below
        intro c hc
        rcases List.mem_cons.1 hc with rfl | hc
        · exact hak
        · exact Nat.lt_trans hak (hlow c hc)
      · simp [Memory.read]
    · split
      · rename_i hak
        subst hak
        split
        · rename_i hv
          rw [hv]
          exact Memory.read_of_below hlow
        · simp [Memory.read]
      · rename_i h1 h2
        simp only [Memory.read, if_neg (fun e : k = a => h2 e.symm)]
        exact ih (Memory.wf_tail h)

/-- Read after write, at every other address. -/
theorem Memory.read_write_other (m : Memory) {a b : Nat} (v : Byte) (hne : b ≠ a) :
    Memory.read (Memory.write m a v) b = Memory.read m b := by
  induction m with
  | nil =>
    by_cases hv : v = Memory.unlisted
    · simp [Memory.write, hv]
    · simp [Memory.write, hv, Memory.read, Ne.symm hne]
  | cons c m ih =>
    obtain ⟨k, x⟩ := c
    simp only [Memory.write]
    split
    · split
      · rfl
      · simp [Memory.read, Ne.symm hne]
    · split
      · rename_i hak
        subst hak
        split
        · simp [Memory.read, Ne.symm hne]
        · simp [Memory.read, Ne.symm hne]
      · simp only [Memory.read, ih]

/-- What a write can list: the written cell, or a cell listed before. -/
theorem Memory.mem_write {m : Memory} {a : Nat} {v : Byte} {c : Host.Cell} (h : c ∈ Memory.write m a v) :
    (c = (a, v) ∧ v ≠ Memory.unlisted) ∨ c ∈ m := by
  induction m with
  | nil =>
    by_cases hv : v = Memory.unlisted
    · simp [Memory.write, hv] at h
    · simp only [Memory.write, if_neg hv, List.mem_singleton] at h
      exact Or.inl ⟨h, hv⟩
  | cons d m ih =>
    obtain ⟨k, x⟩ := d
    simp only [Memory.write] at h
    split at h
    · split at h
      · exact Or.inr h
      · rename_i hv
        rcases List.mem_cons.1 h with rfl | h
        · exact Or.inl ⟨rfl, hv⟩
        · exact Or.inr h
    · split at h
      · split at h
        · exact Or.inr (List.mem_cons_of_mem _ h)
        · rename_i hv
          rcases List.mem_cons.1 h with rfl | h
          · exact Or.inl ⟨rfl, hv⟩
          · exact Or.inr (List.mem_cons_of_mem _ h)
      · rcases List.mem_cons.1 h with rfl | h
        · exact Or.inr (by simp)
        · exact (ih h).imp id (List.mem_cons_of_mem _)

/-- A write keeps the canonical form. -/
theorem Memory.write_wf {m : Memory} (h : Memory.wf m = true) (a : Nat) (v : Byte) :
    Memory.wf (Memory.write m a v) = true := by
  induction m with
  | nil =>
    by_cases hv : v = Memory.unlisted
    · simp [Memory.write, hv, Memory.wf]
    · simp [Memory.write, hv, Memory.wf]
  | cons c m ih =>
    obtain ⟨k, x⟩ := c
    have hw := (Memory.wf_iff _).1 h
    have hlow : ∀ c ∈ m, k < c.1 := (List.pairwise_cons.1 hw.1).1
    simp only [Memory.write]
    split
    · rename_i hak
      split
      · exact h
      · rename_i hv
        rw [Memory.wf_iff]
        refine ⟨List.pairwise_cons.2 ⟨fun c hc => ?_, hw.1⟩, fun c hc => ?_⟩
        · rcases List.mem_cons.1 hc with rfl | hc
          · exact hak
          · exact Nat.lt_trans hak (hlow c hc)
        · rcases List.mem_cons.1 hc with rfl | hc
          · exact hv
          · exact hw.2 c hc
    · rename_i hka
      split
      · rename_i hak
        subst hak
        split
        · exact Memory.wf_tail h
        · rename_i hv
          rw [Memory.wf_iff]
          refine ⟨List.pairwise_cons.2 ⟨hlow, (List.pairwise_cons.1 hw.1).2⟩, fun c hc => ?_⟩
          rcases List.mem_cons.1 hc with rfl | hc
          · exact hv
          · exact hw.2 c (List.mem_cons_of_mem _ hc)
      · rename_i hak
        have hrec := (Memory.wf_iff _).1 (ih (Memory.wf_tail h))
        rw [Memory.wf_iff]
        refine ⟨List.pairwise_cons.2 ⟨fun c hc => ?_, hrec.1⟩, fun c hc => ?_⟩
        · rcases Memory.mem_write hc with ⟨rfl, -⟩ | hc
          · show k < a
            omega
          · exact hlow c hc
        · rcases List.mem_cons.1 hc with rfl | hc
          · exact hw.2 _ (by simp)
          · exact hrec.2 c hc

/-- A write below `size` keeps every listed byte below `size`. -/
theorem Memory.write_inside {m : Memory} {size a : Nat} (h : Memory.inside m size = true) (ha : a < size) (v : Byte) :
    Memory.inside (Memory.write m a v) size = true := by
  simp only [Memory.inside, List.all_eq_true, decide_eq_true_eq] at *
  intro c hc
  rcases Memory.mem_write hc with ⟨rfl, -⟩ | hc
  · exact ha
  · exact h c hc

@[simp] theorem Memory.readBytes_length (m : Memory) (a n : Nat) : (Memory.readBytes m a n).length = n := by
  induction n generalizing a with
  | zero => rfl
  | succ n ih => simp [Memory.readBytes, ih]

theorem Memory.writeBytes_wf {m : Memory} (h : Memory.wf m = true) (a : Nat) (vs : List Byte) :
    Memory.wf (Memory.writeBytes m a vs) = true := by
  induction vs generalizing m a with
  | nil => exact h
  | cons v vs ih => exact ih (Memory.write_wf h a v) (a + 1)

theorem Memory.writeBytes_inside {m : Memory} {size a : Nat} (vs : List Byte) (h : Memory.inside m size = true)
    (ha : vs = [] ∨ a + vs.length ≤ size) : Memory.inside (Memory.writeBytes m a vs) size = true := by
  induction vs generalizing m a with
  | nil => exact h
  | cons v vs ih =>
    have ha' : a + (vs.length + 1) ≤ size := by simpa using ha
    exact ih (Memory.write_inside h (by omega) v) (Or.inr (by omega))

/-- Writing a run of bytes leaves every other address alone. -/
theorem Memory.read_writeBytes_other (m : Memory) (a : Nat) (vs : List Byte) {b : Nat}
    (hb : b < a ∨ a + vs.length ≤ b) : Memory.read (Memory.writeBytes m a vs) b = Memory.read m b := by
  induction vs generalizing m a with
  | nil => rfl
  | cons v vs ih =>
    simp only [List.length_cons] at hb
    rw [Memory.writeBytes, ih _ _ (by omega), Memory.read_write_other _ _ (by omega)]

/-- A run of bytes reads the same where two memories read the same. -/
theorem Memory.readBytes_congr {m m' : Memory} {a n : Nat}
    (h : ∀ b, a ≤ b → b < a + n → Memory.read m' b = Memory.read m b) :
    Memory.readBytes m' a n = Memory.readBytes m a n := by
  induction n generalizing a with
  | zero => rfl
  | succ n ih =>
    simp only [Memory.readBytes]
    rw [h a (by omega) (by omega), ih fun b h1 h2 => h b (by omega) (by omega)]

/-- A run of bytes reads back as it was written. -/
theorem Memory.readBytes_writeBytes {m : Memory} (h : Memory.wf m = true) (a : Nat) (vs : List Byte) :
    Memory.readBytes (Memory.writeBytes m a vs) a vs.length = vs := by
  induction vs generalizing m a with
  | nil => rfl
  | cons v vs ih =>
    simp only [List.length_cons, Memory.readBytes, Memory.writeBytes, List.cons.injEq]
    refine ⟨?_, ih (Memory.write_wf h a v) (a + 1)⟩
    rw [Memory.read_writeBytes_other _ _ _ (by omega), Memory.read_write_same h]

@[simp] theorem freeBytes_length (draw n : Nat) : (freeBytes draw n).length = n := by
  induction n generalizing draw with
  | zero => rfl
  | succ n ih => simp [freeBytes, ih]

theorem Memory.readBytes_succ (m : Memory) (a n : Nat) :
    Memory.readBytes m a (n + 1) = Memory.read m a :: Memory.readBytes m (a + 1) n := rfl

/-- Entry `i` of a run of bytes is the byte at address `a + i` (R54). -/
theorem Memory.readBytes_get (m : Memory) (a n i : Nat) (h : i < n) :
    (Memory.readBytes m a n)[i]? = some (Memory.read m (a + i)) := by
  induction n generalizing a i with
  | zero => omega
  | succ n ih =>
    cases i with
    | zero => simp [Memory.readBytes]
    | succ i =>
      rw [Memory.readBytes_succ, List.getElem?_cons_succ, ih (a + 1) i (by omega)]
      congr 2
      omega

end Sys2Proof.Machine
end

