-- ==== Sys2Proof/Laws/Bulk.lean ====
section
/-! SUPPORT. The laws of the operations the bulk commands share: regions, checks, completion, encoding and decoding a text (R56, R57, R130-R144). -/

namespace Sys2Proof.Machine

open Sys2Proof.Claims

/-- Completion with an informational code, or with RESULT 0, is `completed` (R232). -/
theorem State.finish_eq_completed (s : State) (c : Code) (r i0 i1 : Word) (h : c.isError = false ∨ r = 0) :
    s.finish c r i0 i1 = completed s c r i0 i1 := by
  rcases h with h | h <;> simp [State.finish, completed, h]

theorem State.raise_eq_completed (s : State) (c : Code) (i0 i1 : Word) :
    s.raise c i0 i1 = completed s c 0 i0 i1 := s.finish_eq_completed c 0 i0 i1 (Or.inr rfl)

theorem State.report_eq_completed (s : State) (r : Report) :
    s.report r = completed s r.code 0 r.info0 r.info1 := s.raise_eq_completed _ _ _

/-- A region is in DMEM (R56). -/
theorem Region.inDmem_iff (s : State) (a n : Nat) :
    Region.inDmem ⟨a, n⟩ s.params.dmemSize = true ↔ InDmem s a n := by
  unfold Region.inDmem
  rw [Bool.or_eq_true, beq_iff_eq, decide_eq_true_eq]
  rfl

/-- Two regions do not overlap (R57). -/
theorem Region.overlap_eq_false_iff (a n b m : Nat) : Region.overlap ⟨a, n⟩ ⟨b, m⟩ = false ↔ Apart a n b m := by
  simp only [Region.overlap, Apart, Bool.and_eq_false_iff, decide_eq_false_iff_not]
  omega

theorem srcRegion_eq (s : State) : srcRegion s = ⟨srcAt s, srcN s⟩ := rfl

/-- CheckSrcRange passes exactly on the ranges of R130. -/
theorem srcRangeError_eq_none_iff (s : State) : srcRangeError s = none ↔ SrcInRange s := by
  unfold srcRangeError SrcInRange
  split
  · simp only [reduceCtorEq, false_iff]
    omega
  · split
    · simp only [reduceCtorEq, false_iff]
      omega
    · simp only [true_iff]
      omega

/-- The last two checks pass (R131, R140, R150). -/
theorem dstRegionError_eq_none {s : State} {src dst : Region} (h : dstRegionError s src dst = none) :
    dst.inDmem s.params.dmemSize = true ∧ src.overlap dst = false := by
  unfold dstRegionError at h
  split at h
  · cases h
  · split at h
    · cases h
    · simp_all

/-- A list of checks passes when every one does. -/
theorem findSome?_id_eq_none_iff {α : Type} (checks : List (Option α)) :
    checks.findSome? id = none ↔ ∀ x ∈ checks, x = none := by
  simp [List.findSome?_eq_none_iff]

/-- A run of bytes stored (R54). -/
theorem Memory.writeBytes_stored {m : Memory} (h : Memory.wf m = true) (d : Nat) (vs : List Byte) :
    Stored m (Memory.writeBytes m d vs) d vs :=
  ⟨Memory.readBytes_writeBytes h d vs, fun _ hx => Memory.read_writeBytes_other m d vs hx⟩

/-- A text has ceil(L/3)·4 characters (R132). -/
theorem encodeText_length (bs : List Byte) : (encodeText bs).length = (bs.length + 2) / 3 * 4 := by
  induction bs using encodeText.induct with
  | case1 => rfl
  | case2 => simp [encodeText, TextGroup.chars]
  | case3 => simp [encodeText, TextGroup.chars]
  | case4 b0 b1 b2 rest ih =>
    simp only [encodeText, List.length_append, ih, TextGroup.chars, List.length_cons, List.length_nil]
    omega

/-- Decoding a text group by group (R143). -/
theorem decodeText_cons (index : Nat) (g : TextGroup) (rest : List Byte) :
    decodeText index (g.chars ++ rest) =
      match groupDecode g rest.isEmpty with
      | .err code pos => .err code (index + pos)
      | .ok bytes v =>
        match decodeText (index + 4) rest with
        | .err code pos => .err code pos
        | .ok more => .ok (bytes.take v ++ more) := rfl

/-- The first group of a region of whole groups. -/
theorem Memory.readBytes_group (m : Memory) (a q : Nat) :
    Memory.readBytes m a (4 * (q + 1)) =
      TextGroup.chars ⟨Memory.read m a, Memory.read m (a + 1), Memory.read m (a + 2), Memory.read m (a + 3)⟩ ++
        Memory.readBytes m (a + 4) (4 * q) := by
  rw [show 4 * (q + 1) = 4 * q + 1 + 1 + 1 + 1 by omega]
  simp [Memory.readBytes, TextGroup.chars, show a + 1 + 1 = a + 2 by omega, show a + 2 + 1 = a + 3 by omega,
    show a + 3 + 1 = a + 4 by omega]

/-- A text that decodes has the decoded length of R142. -/
theorem decodeText_length (m : Memory) (q : Nat) :
    ∀ (a index : Nat) (bytes : List Byte), decodeText index (Memory.readBytes m a (4 * q)) = .ok bytes →
      bytes.length = 4 * q * 3 / 4 - regionPadCount m ⟨a, 4 * q⟩ := by
  induction q with
  | zero =>
    intro a index bytes h
    simp only [Memory.readBytes, decodeText, TextResult.ok.injEq] at h
    subst h
    simp
  | succ q ih =>
    intro a index bytes h
    rw [Memory.readBytes_group, decodeText_cons] at h
    split at h
    · cases h
    · rename_i b v hg
      split at h
      · cases h
      · rename_i more hm
        cases h
        have hv := groupDecode_valid hg
        have hr := groupDecode_valid_range hg
        have hl : (b.take v).length = v := by
          simp [Buf3.take]
          omega
        cases q with
        | zero =>
          simp only [Memory.readBytes, decodeText] at hm
          cases hm
          simp only [List.append_nil, hl]
          simp [Memory.readBytes, padCount] at hv
          rw [hv]
          simp only [regionPadCount, padCode]
          by_cases h3 : Memory.read m (a + 3) = 61#8
          · simp [h3]
            rfl
          · simp [h3]
        | succ q =>
          have hmore := ih (a + 4) (index + 4) more hm
          have hne : (Memory.readBytes m (a + 4) (4 * (q + 1))).isEmpty = false := by
            simp [show 4 * (q + 1) = 4 * q + 3 + 1 by omega, Memory.readBytes]
          rw [hne] at hv
          simp [padCount] at hv
          rw [List.length_append, hl, hmore]
          have h1 : ¬ 4 * (q + 1) = 0 := by omega
          have h2 : ¬ 4 * (q + 1 + 1) = 0 := by omega
          simp only [regionPadCount, show a + 4 + 4 * (q + 1) = a + 4 * (q + 1 + 1) by omega, h1, h2, if_false]
          split
          · omega
          · split <;> omega

theorem decodedLen_eq_decodedN (s : State) : decodedLen s = decodedN s := rfl

/-- The decoded bytes fill the destination region exactly (R142, R143). -/
theorem decodeText_src_length (s : State) (h4 : s.srcCnt % 4 = 0) {bytes : List Byte}
    (h : decodeText 0 (srcData s) = .ok bytes) : bytes.length = decodedN s := by
  obtain ⟨q, hq⟩ : ∃ q, srcN s = 4 * q := by
    refine ⟨srcN s / 4, ?_⟩
    unfold srcN
    omega
  unfold srcData at h
  rw [hq] at h
  rw [decodeText_length s.dmem q _ _ _ h]
  unfold decodedN regionPadCount
  rw [hq]
  rfl

/-- The shared end of DECODE and DECODE_ALLOC on a text that decodes (R143). -/
theorem decodeInto_of_ok {s : State} (dst : Region) {bytes : List Byte} (h : decodeText 0 (srcData s) = .ok bytes)
    (hw : Memory.wf s.dmem = true) (hl : bytes.length = dst.len) :
    ∃ m, decodeInto s dst = .next (completed { s with dmem := m } .ok (BitVec.ofNat 32 dst.len) 0 0) ∧
      bytes.length = dst.len ∧ Stored s.dmem m dst.start bytes := by
  refine ⟨_, ?_, hl, Memory.writeBytes_stored hw _ _⟩
  have hs : srcBytes s = srcData s := rfl
  simp only [decodeInto, hs, h]
  rw [State.finish_eq_completed _ _ _ _ _ (Or.inl rfl)]
  rfl

/-- The shared end of DECODE and DECODE_ALLOC on a text with an offending character (R144). -/
theorem decodeInto_of_err {s : State} (dst : Region) {code : Byte} {index : Nat}
    (h : decodeText 0 (srcData s) = .err code index) (hw : Memory.wf s.dmem = true) :
    ∃ m, decodeInto s dst =
        .next (completed { s with dmem := m, draws := s.draws + dst.len } .invalidCharacter 0 (code.setWidth 32)
          (BitVec.ofNat 32 index)) ∧
      Stored s.dmem m dst.start (freeBytes s.draws dst.len) := by
  refine ⟨_, ?_, Memory.writeBytes_stored hw _ _⟩
  have hs : srcBytes s = srcData s := rfl
  simp only [decodeInto, hs, h]
  rw [State.raise_eq_completed]
  rfl

@[simp] theorem Region.none_inDmem (size : Nat) : Region.none.inDmem size = true := rfl

@[simp] theorem Region.none_contains (a : Nat) : Region.none.contains a = false := by
  simp [Region.contains, Region.none]

/-- The bytes of a region that lie in DMEM (R50, R56). -/
theorem Region.contains_clip (r : Region) (size a : Nat) :
    (r.clip size).contains a = true ↔ r.start ≤ a ∧ a < r.start + r.len ∧ a < size := by
  unfold Region.clip
  split
  · simp only [Region.contains, Bool.and_eq_true, decide_eq_true_eq]
    omega
  · simp only [Region.none_contains, Bool.false_eq_true, false_iff]
    omega

/-- No byte outside DMEM is guarded (R56). -/
theorem Region.clip_inDmem (r : Region) (size : Nat) : (r.clip size).inDmem size = true := by
  unfold Region.clip
  split
  · simp only [Region.inDmem, Bool.or_eq_true, decide_eq_true_eq]
    omega
  · rfl

theorem guardedSrc_inDmem (i : Instr) (s : State) : (guardedSrc i s).inDmem s.params.dmemSize = true := by
  cases i <;> simp only [guardedSrc, Region.none_inDmem] <;> split <;> simp [Region.clip_inDmem]

theorem guardedDst_inDmem (i : Instr) (s : State) : (guardedDst i s).inDmem s.params.dmemSize = true := by
  cases i <;> simp only [guardedDst, Region.none_inDmem] <;> split <;> simp [Region.clip_inDmem]

/-- The bytes a running word guards lie in DMEM, whatever the word. -/
theorem wordSrc_inDmem (w : Word) (s : State) : (wordSrc w s).inDmem s.params.dmemSize = true := by
  unfold wordSrc
  split
  · exact guardedSrc_inDmem _ s
  · rfl

theorem wordDst_inDmem (w : Word) (s : State) : (wordDst w s).inDmem s.params.dmemSize = true := by
  unfold wordDst
  split
  · exact guardedDst_inDmem _ s
  · rfl

end Sys2Proof.Machine
end

