-- ==== Sys2Proof/Laws/Encoding.lean ====
section
/-! SUPPORT. The laws of command words and of CSR addresses (R23, R53, R70-R75). -/

namespace Sys2Proof

/-- A command word is its reserved field and its opcode (R70). -/
theorem word_eq_fields (w : Word) : w = reservedField w ++ opcodeField w := by
  apply BitVec.eq_of_toNat_eq
  have := w.isLt
  rw [BitVec.toNat_append, ← Nat.shiftLeft_add_eq_or_of_lt (BitVec.isLt _)]
  simp only [reservedField, opcodeField, BitVec.extractLsb'_toNat, Nat.shiftLeft_eq, Nat.shiftRight_eq_div_pow]
  omega

/-- Every row of the opcode map has the full mask and the word `encode` gives (R72, R73). -/
theorem opcodeRows_mask_pattern :
    ∀ r ∈ opcodeRows, r.mask = 0xFFFFFFFF#32 ∧ r.pattern = encode r.instr := by decide

/-- The one word of each command (R73). -/
theorem decode_ok_iff (w : Word) (i : Instr) : decode w = .ok i ↔ w = encode i := by
  constructor
  · intro h
    unfold decode selectedRow at h
    split at h
    · rename_i r hr
      obtain ⟨hm, hp⟩ := opcodeRows_mask_pattern r (List.mem_of_find?_eq_some hr)
      have hmatch := List.find?_some hr
      rw [hm, hp, show (0xFFFFFFFF#32) = BitVec.allOnes 32 by decide, BitVec.and_allOnes] at hmatch
      cases h
      simpa using hmatch
    · split at h <;> cases h
  · rintro rfl
    cases i <;> decide

@[simp] theorem decode_encode (i : Instr) : decode (encode i) = .ok i := (decode_ok_iff _ _).2 rfl

theorem encode_injective {i j : Instr} (h : encode i = encode j) : i = j := by
  have := decode_encode i
  rw [h, decode_encode j] at this
  cases this
  rfl

/-- Each CSR has its own offset (R23). -/
@[simp] theorem csrAt_csrOffset (n : CsrName) : csrAt (csrOffset n) = some n := by
  cases n <;> decide

/-- The table of R23, as the statements write it out, is the one the machine uses. -/
@[simp] theorem registerOffset_eq_csrOffset (n : CsrName) : Claims.registerOffset n = csrOffset n := by
  cases n <;> rfl

theorem csrOffset_le (n : CsrName) : csrOffset n ≤ 0x40 := by
  cases n <;> decide

theorem csrOffset_mod_four (n : CsrName) : csrOffset n % 4 = 0 := by
  cases n <;> decide

/-- When an access touches the window (R53). -/
theorem touchesWindow_iff (p : Config.Params) (addr : Nat) (width : AccessWidth) :
    touchesWindow p addr width = true ↔ addr < p.csrBase + 256 ∧ p.csrBase < addr + width.bytes := by
  unfold touchesWindow
  rw [Bool.and_eq_true, decide_eq_true_eq, decide_eq_true_eq]
  rfl

/-- When an access is an aligned 32-bit one (R53). -/
theorem alignedAccess_iff (p : Config.Params) (addr : Nat) (width : AccessWidth) :
    alignedAccess p addr width = true ↔ width = .word ∧ p.csrBase ≤ addr ∧ (addr - p.csrBase) % 4 = 0 := by
  simp [alignedAccess, and_assoc]

/-- An aligned 32-bit access at a CSR's offset touches the window (R53). -/
@[simp] theorem touchesWindow_csr (p : Config.Params) (n : CsrName) :
    touchesWindow p (p.csrBase + csrOffset n) .word = true := by
  have := csrOffset_le n
  rw [touchesWindow_iff]
  simp only [AccessWidth.bytes]
  omega

/-- An access at a CSR's offset is an aligned one (R53). -/
@[simp] theorem alignedAccess_csr (p : Config.Params) (n : CsrName) :
    alignedAccess p (p.csrBase + csrOffset n) .word = true := by
  have := csrOffset_mod_four n
  rw [alignedAccess_iff]
  simp [this]

end Sys2Proof
end

