-- ==== Sys2Proof/Laws/State.lean ====
section
/-! SUPPORT. One lemma per field per update of State, true by rfl, so that no proof unfolds a record update. -/

namespace Sys2Proof.Machine

variable (s : State)

/-- Completion with an error code or with RESULT 0 leaves RESULT 0 (R232). -/
@[simp] theorem State.raise_result (c : Code) (i0 i1 : Word) : (s.raise c i0 i1).result = 0 := by
  simp [State.raise, State.finish]

@[simp] theorem State.reReport_result (l : Latch) : (s.reReport l).result = 0 := by
  simp [State.reReport]

@[simp] theorem State.decFail_result (c : Code) (i0 i1 : Word) : (s.decFail c i0 i1).result = 0 := by
  simp [State.decFail]

/-! Acceptance (R230). -/

@[simp] theorem State.accept_params (w : Word) : (s.accept w).params = s.params := rfl
@[simp] theorem State.accept_phase (w : Word) : (s.accept w).phase = .running := rfl
@[simp] theorem State.accept_cmdWord (w : Word) : (s.accept w).cmdWord = some w := rfl
@[simp] theorem State.accept_done (w : Word) : (s.accept w).done = false := rfl
@[simp] theorem State.accept_ovr (w : Word) : (s.accept w).ovr = false := rfl
@[simp] theorem State.accept_code (w : Word) : (s.accept w).code = s.code := rfl
@[simp] theorem State.accept_result (w : Word) : (s.accept w).result = s.result := rfl
@[simp] theorem State.accept_info0 (w : Word) : (s.accept w).info0 = s.info0 := rfl
@[simp] theorem State.accept_info1 (w : Word) : (s.accept w).info1 = s.info1 := rfl
@[simp] theorem State.accept_args (w : Word) : (s.accept w).args = s.args := rfl
@[simp] theorem State.accept_enc (w : Word) : (s.accept w).enc = s.enc := rfl
@[simp] theorem State.accept_dec (w : Word) : (s.accept w).dec = s.dec := rfl
@[simp] theorem State.accept_dmem (w : Word) : (s.accept w).dmem = s.dmem := rfl
@[simp] theorem State.accept_sink (w : Word) : (s.accept w).sink = s.sink := rfl
@[simp] theorem State.accept_source (w : Word) : (s.accept w).source = s.source := rfl
@[simp] theorem State.accept_inputs (w : Word) : (s.accept w).inputs = s.inputs := rfl
@[simp] theorem State.accept_latency (w : Word) : (s.accept w).latency = s.latency := rfl
@[simp] theorem State.accept_hostLog (w : Word) : (s.accept w).hostLog = s.hostLog := rfl
@[simp] theorem State.accept_draws (w : Word) : (s.accept w).draws = s.draws := rfl

/-! Completion (R232). -/

@[simp] theorem State.finish_params (c : Code) (r i0 i1 : Word) : (s.finish c r i0 i1).params = s.params := rfl
@[simp] theorem State.finish_phase (c : Code) (r i0 i1 : Word) : (s.finish c r i0 i1).phase = .idle := rfl
@[simp] theorem State.finish_cmdWord (c : Code) (r i0 i1 : Word) : (s.finish c r i0 i1).cmdWord = none := rfl
@[simp] theorem State.finish_done (c : Code) (r i0 i1 : Word) : (s.finish c r i0 i1).done = true := rfl
@[simp] theorem State.finish_ovr (c : Code) (r i0 i1 : Word) : (s.finish c r i0 i1).ovr = s.ovr := rfl
@[simp] theorem State.finish_code (c : Code) (r i0 i1 : Word) : (s.finish c r i0 i1).code = c := rfl
@[simp] theorem State.finish_result (c : Code) (r i0 i1 : Word) : (s.finish c r i0 i1).result = if c.isError then 0 else r := rfl
@[simp] theorem State.finish_info0 (c : Code) (r i0 i1 : Word) : (s.finish c r i0 i1).info0 = i0 := rfl
@[simp] theorem State.finish_info1 (c : Code) (r i0 i1 : Word) : (s.finish c r i0 i1).info1 = i1 := rfl
@[simp] theorem State.finish_args (c : Code) (r i0 i1 : Word) : (s.finish c r i0 i1).args = s.args := rfl
@[simp] theorem State.finish_enc (c : Code) (r i0 i1 : Word) : (s.finish c r i0 i1).enc = s.enc := rfl
@[simp] theorem State.finish_dec (c : Code) (r i0 i1 : Word) : (s.finish c r i0 i1).dec = s.dec := rfl
@[simp] theorem State.finish_dmem (c : Code) (r i0 i1 : Word) : (s.finish c r i0 i1).dmem = s.dmem := rfl
@[simp] theorem State.finish_sink (c : Code) (r i0 i1 : Word) : (s.finish c r i0 i1).sink = s.sink := rfl
@[simp] theorem State.finish_source (c : Code) (r i0 i1 : Word) : (s.finish c r i0 i1).source = s.source := rfl
@[simp] theorem State.finish_inputs (c : Code) (r i0 i1 : Word) : (s.finish c r i0 i1).inputs = s.inputs := rfl
@[simp] theorem State.finish_latency (c : Code) (r i0 i1 : Word) : (s.finish c r i0 i1).latency = s.latency := rfl
@[simp] theorem State.finish_hostLog (c : Code) (r i0 i1 : Word) : (s.finish c r i0 i1).hostLog = s.hostLog := rfl
@[simp] theorem State.finish_draws (c : Code) (r i0 i1 : Word) : (s.finish c r i0 i1).draws = s.draws := rfl

/-! `raise` (R11). -/

@[simp] theorem State.raise_params (c : Code) (i0 i1 : Word) : (s.raise c i0 i1).params = s.params := rfl
@[simp] theorem State.raise_phase (c : Code) (i0 i1 : Word) : (s.raise c i0 i1).phase = .idle := rfl
@[simp] theorem State.raise_cmdWord (c : Code) (i0 i1 : Word) : (s.raise c i0 i1).cmdWord = none := rfl
@[simp] theorem State.raise_done (c : Code) (i0 i1 : Word) : (s.raise c i0 i1).done = true := rfl
@[simp] theorem State.raise_ovr (c : Code) (i0 i1 : Word) : (s.raise c i0 i1).ovr = s.ovr := rfl
@[simp] theorem State.raise_code (c : Code) (i0 i1 : Word) : (s.raise c i0 i1).code = c := rfl
@[simp] theorem State.raise_info0 (c : Code) (i0 i1 : Word) : (s.raise c i0 i1).info0 = i0 := rfl
@[simp] theorem State.raise_info1 (c : Code) (i0 i1 : Word) : (s.raise c i0 i1).info1 = i1 := rfl
@[simp] theorem State.raise_args (c : Code) (i0 i1 : Word) : (s.raise c i0 i1).args = s.args := rfl
@[simp] theorem State.raise_enc (c : Code) (i0 i1 : Word) : (s.raise c i0 i1).enc = s.enc := rfl
@[simp] theorem State.raise_dec (c : Code) (i0 i1 : Word) : (s.raise c i0 i1).dec = s.dec := rfl
@[simp] theorem State.raise_dmem (c : Code) (i0 i1 : Word) : (s.raise c i0 i1).dmem = s.dmem := rfl
@[simp] theorem State.raise_sink (c : Code) (i0 i1 : Word) : (s.raise c i0 i1).sink = s.sink := rfl
@[simp] theorem State.raise_source (c : Code) (i0 i1 : Word) : (s.raise c i0 i1).source = s.source := rfl
@[simp] theorem State.raise_inputs (c : Code) (i0 i1 : Word) : (s.raise c i0 i1).inputs = s.inputs := rfl
@[simp] theorem State.raise_latency (c : Code) (i0 i1 : Word) : (s.raise c i0 i1).latency = s.latency := rfl
@[simp] theorem State.raise_hostLog (c : Code) (i0 i1 : Word) : (s.raise c i0 i1).hostLog = s.hostLog := rfl
@[simp] theorem State.raise_draws (c : Code) (i0 i1 : Word) : (s.raise c i0 i1).draws = s.draws := rfl

/-! The sticky re-report (R246). -/

@[simp] theorem State.reReport_params (l : Latch) : (s.reReport l).params = s.params := rfl
@[simp] theorem State.reReport_phase (l : Latch) : (s.reReport l).phase = .idle := rfl
@[simp] theorem State.reReport_cmdWord (l : Latch) : (s.reReport l).cmdWord = none := rfl
@[simp] theorem State.reReport_done (l : Latch) : (s.reReport l).done = true := rfl
@[simp] theorem State.reReport_ovr (l : Latch) : (s.reReport l).ovr = s.ovr := rfl
@[simp] theorem State.reReport_code (l : Latch) : (s.reReport l).code = l.code := rfl
@[simp] theorem State.reReport_info0 (l : Latch) : (s.reReport l).info0 = l.info0 := rfl
@[simp] theorem State.reReport_info1 (l : Latch) : (s.reReport l).info1 = l.info1 := rfl
@[simp] theorem State.reReport_args (l : Latch) : (s.reReport l).args = s.args := rfl
@[simp] theorem State.reReport_enc (l : Latch) : (s.reReport l).enc = s.enc := rfl
@[simp] theorem State.reReport_dec (l : Latch) : (s.reReport l).dec = s.dec := rfl
@[simp] theorem State.reReport_dmem (l : Latch) : (s.reReport l).dmem = s.dmem := rfl
@[simp] theorem State.reReport_sink (l : Latch) : (s.reReport l).sink = s.sink := rfl
@[simp] theorem State.reReport_source (l : Latch) : (s.reReport l).source = s.source := rfl
@[simp] theorem State.reReport_inputs (l : Latch) : (s.reReport l).inputs = s.inputs := rfl
@[simp] theorem State.reReport_latency (l : Latch) : (s.reReport l).latency = s.latency := rfl
@[simp] theorem State.reReport_hostLog (l : Latch) : (s.reReport l).hostLog = s.hostLog := rfl
@[simp] theorem State.reReport_draws (l : Latch) : (s.reReport l).draws = s.draws := rfl

/-! A run of bytes written to DMEM. -/

@[simp] theorem State.store_params (a : Nat) (vs : List Byte) : (s.store a vs).params = s.params := rfl
@[simp] theorem State.store_phase (a : Nat) (vs : List Byte) : (s.store a vs).phase = s.phase := rfl
@[simp] theorem State.store_cmdWord (a : Nat) (vs : List Byte) : (s.store a vs).cmdWord = s.cmdWord := rfl
@[simp] theorem State.store_done (a : Nat) (vs : List Byte) : (s.store a vs).done = s.done := rfl
@[simp] theorem State.store_ovr (a : Nat) (vs : List Byte) : (s.store a vs).ovr = s.ovr := rfl
@[simp] theorem State.store_code (a : Nat) (vs : List Byte) : (s.store a vs).code = s.code := rfl
@[simp] theorem State.store_result (a : Nat) (vs : List Byte) : (s.store a vs).result = s.result := rfl
@[simp] theorem State.store_info0 (a : Nat) (vs : List Byte) : (s.store a vs).info0 = s.info0 := rfl
@[simp] theorem State.store_info1 (a : Nat) (vs : List Byte) : (s.store a vs).info1 = s.info1 := rfl
@[simp] theorem State.store_args (a : Nat) (vs : List Byte) : (s.store a vs).args = s.args := rfl
@[simp] theorem State.store_enc (a : Nat) (vs : List Byte) : (s.store a vs).enc = s.enc := rfl
@[simp] theorem State.store_dec (a : Nat) (vs : List Byte) : (s.store a vs).dec = s.dec := rfl
@[simp] theorem State.store_dmem (a : Nat) (vs : List Byte) : (s.store a vs).dmem = Memory.writeBytes s.dmem a vs := rfl
@[simp] theorem State.store_sink (a : Nat) (vs : List Byte) : (s.store a vs).sink = s.sink := rfl
@[simp] theorem State.store_source (a : Nat) (vs : List Byte) : (s.store a vs).source = s.source := rfl
@[simp] theorem State.store_inputs (a : Nat) (vs : List Byte) : (s.store a vs).inputs = s.inputs := rfl
@[simp] theorem State.store_latency (a : Nat) (vs : List Byte) : (s.store a vs).latency = s.latency := rfl
@[simp] theorem State.store_hostLog (a : Nat) (vs : List Byte) : (s.store a vs).hostLog = s.hostLog := rfl
@[simp] theorem State.store_draws (a : Nat) (vs : List Byte) : (s.store a vs).draws = s.draws := rfl

/-! A region of free bytes (R144). -/

@[simp] theorem State.scramble_params (r : Region) : (s.scramble r).params = s.params := rfl
@[simp] theorem State.scramble_phase (r : Region) : (s.scramble r).phase = s.phase := rfl
@[simp] theorem State.scramble_cmdWord (r : Region) : (s.scramble r).cmdWord = s.cmdWord := rfl
@[simp] theorem State.scramble_done (r : Region) : (s.scramble r).done = s.done := rfl
@[simp] theorem State.scramble_ovr (r : Region) : (s.scramble r).ovr = s.ovr := rfl
@[simp] theorem State.scramble_code (r : Region) : (s.scramble r).code = s.code := rfl
@[simp] theorem State.scramble_result (r : Region) : (s.scramble r).result = s.result := rfl
@[simp] theorem State.scramble_info0 (r : Region) : (s.scramble r).info0 = s.info0 := rfl
@[simp] theorem State.scramble_info1 (r : Region) : (s.scramble r).info1 = s.info1 := rfl
@[simp] theorem State.scramble_args (r : Region) : (s.scramble r).args = s.args := rfl
@[simp] theorem State.scramble_enc (r : Region) : (s.scramble r).enc = s.enc := rfl
@[simp] theorem State.scramble_dec (r : Region) : (s.scramble r).dec = s.dec := rfl
@[simp] theorem State.scramble_dmem (r : Region) : (s.scramble r).dmem = Memory.writeBytes s.dmem r.start (freeBytes s.draws r.len) := rfl
@[simp] theorem State.scramble_sink (r : Region) : (s.scramble r).sink = s.sink := rfl
@[simp] theorem State.scramble_source (r : Region) : (s.scramble r).source = s.source := rfl
@[simp] theorem State.scramble_inputs (r : Region) : (s.scramble r).inputs = s.inputs := rfl
@[simp] theorem State.scramble_latency (r : Region) : (s.scramble r).latency = s.latency := rfl
@[simp] theorem State.scramble_hostLog (r : Region) : (s.scramble r).hostLog = s.hostLog := rfl
@[simp] theorem State.scramble_draws (r : Region) : (s.scramble r).draws = s.draws + r.len := rfl

/-! SinkPut is issued (R170). -/

@[simp] theorem State.issuePut_params (c : Byte) : (s.issuePut c).params = s.params := rfl
@[simp] theorem State.issuePut_phase (c : Byte) : (s.issuePut c).phase = s.phase := rfl
@[simp] theorem State.issuePut_cmdWord (c : Byte) : (s.issuePut c).cmdWord = s.cmdWord := rfl
@[simp] theorem State.issuePut_done (c : Byte) : (s.issuePut c).done = s.done := rfl
@[simp] theorem State.issuePut_ovr (c : Byte) : (s.issuePut c).ovr = s.ovr := rfl
@[simp] theorem State.issuePut_code (c : Byte) : (s.issuePut c).code = s.code := rfl
@[simp] theorem State.issuePut_result (c : Byte) : (s.issuePut c).result = s.result := rfl
@[simp] theorem State.issuePut_info0 (c : Byte) : (s.issuePut c).info0 = s.info0 := rfl
@[simp] theorem State.issuePut_info1 (c : Byte) : (s.issuePut c).info1 = s.info1 := rfl
@[simp] theorem State.issuePut_args (c : Byte) : (s.issuePut c).args = s.args := rfl
@[simp] theorem State.issuePut_enc (c : Byte) : (s.issuePut c).enc = s.enc := rfl
@[simp] theorem State.issuePut_dec (c : Byte) : (s.issuePut c).dec = s.dec := rfl
@[simp] theorem State.issuePut_dmem (c : Byte) : (s.issuePut c).dmem = s.dmem := rfl
@[simp] theorem State.issuePut_sink (c : Byte) : (s.issuePut c).sink = { s.sink with log := s.sink.log ++ [.put c] } := rfl
@[simp] theorem State.issuePut_source (c : Byte) : (s.issuePut c).source = s.source := rfl
@[simp] theorem State.issuePut_inputs (c : Byte) : (s.issuePut c).inputs = s.inputs := rfl
@[simp] theorem State.issuePut_latency (c : Byte) : (s.issuePut c).latency = s.latency := rfl
@[simp] theorem State.issuePut_hostLog (c : Byte) : (s.issuePut c).hostLog = s.hostLog := rfl
@[simp] theorem State.issuePut_draws (c : Byte) : (s.issuePut c).draws = s.draws := rfl

/-! SinkClose is issued (R170). -/

@[simp] theorem State.issueSinkClose_params : (s.issueSinkClose).params = s.params := rfl
@[simp] theorem State.issueSinkClose_phase : (s.issueSinkClose).phase = s.phase := rfl
@[simp] theorem State.issueSinkClose_cmdWord : (s.issueSinkClose).cmdWord = s.cmdWord := rfl
@[simp] theorem State.issueSinkClose_done : (s.issueSinkClose).done = s.done := rfl
@[simp] theorem State.issueSinkClose_ovr : (s.issueSinkClose).ovr = s.ovr := rfl
@[simp] theorem State.issueSinkClose_code : (s.issueSinkClose).code = s.code := rfl
@[simp] theorem State.issueSinkClose_result : (s.issueSinkClose).result = s.result := rfl
@[simp] theorem State.issueSinkClose_info0 : (s.issueSinkClose).info0 = s.info0 := rfl
@[simp] theorem State.issueSinkClose_info1 : (s.issueSinkClose).info1 = s.info1 := rfl
@[simp] theorem State.issueSinkClose_args : (s.issueSinkClose).args = s.args := rfl
@[simp] theorem State.issueSinkClose_enc : (s.issueSinkClose).enc = s.enc := rfl
@[simp] theorem State.issueSinkClose_dec : (s.issueSinkClose).dec = s.dec := rfl
@[simp] theorem State.issueSinkClose_dmem : (s.issueSinkClose).dmem = s.dmem := rfl
@[simp] theorem State.issueSinkClose_sink : (s.issueSinkClose).sink = { s.sink with log := s.sink.log ++ [.close] } := rfl
@[simp] theorem State.issueSinkClose_source : (s.issueSinkClose).source = s.source := rfl
@[simp] theorem State.issueSinkClose_inputs : (s.issueSinkClose).inputs = s.inputs := rfl
@[simp] theorem State.issueSinkClose_latency : (s.issueSinkClose).latency = s.latency := rfl
@[simp] theorem State.issueSinkClose_hostLog : (s.issueSinkClose).hostLog = s.hostLog := rfl
@[simp] theorem State.issueSinkClose_draws : (s.issueSinkClose).draws = s.draws := rfl

/-! A source request is issued (R190). -/

@[simp] theorem State.issueSource_params (r : SrcReq) : (s.issueSource r).params = s.params := rfl
@[simp] theorem State.issueSource_phase (r : SrcReq) : (s.issueSource r).phase = s.phase := rfl
@[simp] theorem State.issueSource_cmdWord (r : SrcReq) : (s.issueSource r).cmdWord = s.cmdWord := rfl
@[simp] theorem State.issueSource_done (r : SrcReq) : (s.issueSource r).done = s.done := rfl
@[simp] theorem State.issueSource_ovr (r : SrcReq) : (s.issueSource r).ovr = s.ovr := rfl
@[simp] theorem State.issueSource_code (r : SrcReq) : (s.issueSource r).code = s.code := rfl
@[simp] theorem State.issueSource_result (r : SrcReq) : (s.issueSource r).result = s.result := rfl
@[simp] theorem State.issueSource_info0 (r : SrcReq) : (s.issueSource r).info0 = s.info0 := rfl
@[simp] theorem State.issueSource_info1 (r : SrcReq) : (s.issueSource r).info1 = s.info1 := rfl
@[simp] theorem State.issueSource_args (r : SrcReq) : (s.issueSource r).args = s.args := rfl
@[simp] theorem State.issueSource_enc (r : SrcReq) : (s.issueSource r).enc = s.enc := rfl
@[simp] theorem State.issueSource_dec (r : SrcReq) : (s.issueSource r).dec = s.dec := rfl
@[simp] theorem State.issueSource_dmem (r : SrcReq) : (s.issueSource r).dmem = s.dmem := rfl
@[simp] theorem State.issueSource_sink (r : SrcReq) : (s.issueSource r).sink = s.sink := rfl
@[simp] theorem State.issueSource_source (r : SrcReq) : (s.issueSource r).source = { s.source with log := s.source.log ++ [r] } := rfl
@[simp] theorem State.issueSource_inputs (r : SrcReq) : (s.issueSource r).inputs = s.inputs := rfl
@[simp] theorem State.issueSource_latency (r : SrcReq) : (s.issueSource r).latency = s.latency := rfl
@[simp] theorem State.issueSource_hostLog (r : SrcReq) : (s.issueSource r).hostLog = s.hostLog := rfl
@[simp] theorem State.issueSource_draws (r : SrcReq) : (s.issueSource r).draws = s.draws := rfl

/-! The sink's answers to SinkPut. -/

@[simp] theorem State.withPutAnswers_params (q : List (Nat × Answer)) : (s.withPutAnswers q).params = s.params := rfl
@[simp] theorem State.withPutAnswers_phase (q : List (Nat × Answer)) : (s.withPutAnswers q).phase = s.phase := rfl
@[simp] theorem State.withPutAnswers_cmdWord (q : List (Nat × Answer)) : (s.withPutAnswers q).cmdWord = s.cmdWord := rfl
@[simp] theorem State.withPutAnswers_done (q : List (Nat × Answer)) : (s.withPutAnswers q).done = s.done := rfl
@[simp] theorem State.withPutAnswers_ovr (q : List (Nat × Answer)) : (s.withPutAnswers q).ovr = s.ovr := rfl
@[simp] theorem State.withPutAnswers_code (q : List (Nat × Answer)) : (s.withPutAnswers q).code = s.code := rfl
@[simp] theorem State.withPutAnswers_result (q : List (Nat × Answer)) : (s.withPutAnswers q).result = s.result := rfl
@[simp] theorem State.withPutAnswers_info0 (q : List (Nat × Answer)) : (s.withPutAnswers q).info0 = s.info0 := rfl
@[simp] theorem State.withPutAnswers_info1 (q : List (Nat × Answer)) : (s.withPutAnswers q).info1 = s.info1 := rfl
@[simp] theorem State.withPutAnswers_args (q : List (Nat × Answer)) : (s.withPutAnswers q).args = s.args := rfl
@[simp] theorem State.withPutAnswers_enc (q : List (Nat × Answer)) : (s.withPutAnswers q).enc = s.enc := rfl
@[simp] theorem State.withPutAnswers_dec (q : List (Nat × Answer)) : (s.withPutAnswers q).dec = s.dec := rfl
@[simp] theorem State.withPutAnswers_dmem (q : List (Nat × Answer)) : (s.withPutAnswers q).dmem = s.dmem := rfl
@[simp] theorem State.withPutAnswers_sink (q : List (Nat × Answer)) : (s.withPutAnswers q).sink = { s.sink with putAnswers := q } := rfl
@[simp] theorem State.withPutAnswers_source (q : List (Nat × Answer)) : (s.withPutAnswers q).source = s.source := rfl
@[simp] theorem State.withPutAnswers_inputs (q : List (Nat × Answer)) : (s.withPutAnswers q).inputs = s.inputs := rfl
@[simp] theorem State.withPutAnswers_latency (q : List (Nat × Answer)) : (s.withPutAnswers q).latency = s.latency := rfl
@[simp] theorem State.withPutAnswers_hostLog (q : List (Nat × Answer)) : (s.withPutAnswers q).hostLog = s.hostLog := rfl
@[simp] theorem State.withPutAnswers_draws (q : List (Nat × Answer)) : (s.withPutAnswers q).draws = s.draws := rfl

/-! The sink accepts a character. -/

@[simp] theorem State.sinkAccepts_params (c : Byte) : (s.sinkAccepts c).params = s.params := rfl
@[simp] theorem State.sinkAccepts_phase (c : Byte) : (s.sinkAccepts c).phase = s.phase := rfl
@[simp] theorem State.sinkAccepts_cmdWord (c : Byte) : (s.sinkAccepts c).cmdWord = s.cmdWord := rfl
@[simp] theorem State.sinkAccepts_done (c : Byte) : (s.sinkAccepts c).done = s.done := rfl
@[simp] theorem State.sinkAccepts_ovr (c : Byte) : (s.sinkAccepts c).ovr = s.ovr := rfl
@[simp] theorem State.sinkAccepts_code (c : Byte) : (s.sinkAccepts c).code = s.code := rfl
@[simp] theorem State.sinkAccepts_result (c : Byte) : (s.sinkAccepts c).result = s.result := rfl
@[simp] theorem State.sinkAccepts_info0 (c : Byte) : (s.sinkAccepts c).info0 = s.info0 := rfl
@[simp] theorem State.sinkAccepts_info1 (c : Byte) : (s.sinkAccepts c).info1 = s.info1 := rfl
@[simp] theorem State.sinkAccepts_args (c : Byte) : (s.sinkAccepts c).args = s.args := rfl
@[simp] theorem State.sinkAccepts_enc (c : Byte) : (s.sinkAccepts c).enc = s.enc := rfl
@[simp] theorem State.sinkAccepts_dec (c : Byte) : (s.sinkAccepts c).dec = s.dec := rfl
@[simp] theorem State.sinkAccepts_dmem (c : Byte) : (s.sinkAccepts c).dmem = s.dmem := rfl
@[simp] theorem State.sinkAccepts_sink (c : Byte) : (s.sinkAccepts c).sink = { s.sink with accepted := s.sink.accepted ++ [c] } := rfl
@[simp] theorem State.sinkAccepts_source (c : Byte) : (s.sinkAccepts c).source = s.source := rfl
@[simp] theorem State.sinkAccepts_inputs (c : Byte) : (s.sinkAccepts c).inputs = s.inputs := rfl
@[simp] theorem State.sinkAccepts_latency (c : Byte) : (s.sinkAccepts c).latency = s.latency := rfl
@[simp] theorem State.sinkAccepts_hostLog (c : Byte) : (s.sinkAccepts c).hostLog = s.hostLog := rfl
@[simp] theorem State.sinkAccepts_draws (c : Byte) : (s.sinkAccepts c).draws = s.draws := rfl

/-! The sink's answers to SinkClose. -/

@[simp] theorem State.withSinkCloseAnswers_params (q : List (Nat × Answer)) : (s.withSinkCloseAnswers q).params = s.params := rfl
@[simp] theorem State.withSinkCloseAnswers_phase (q : List (Nat × Answer)) : (s.withSinkCloseAnswers q).phase = s.phase := rfl
@[simp] theorem State.withSinkCloseAnswers_cmdWord (q : List (Nat × Answer)) : (s.withSinkCloseAnswers q).cmdWord = s.cmdWord := rfl
@[simp] theorem State.withSinkCloseAnswers_done (q : List (Nat × Answer)) : (s.withSinkCloseAnswers q).done = s.done := rfl
@[simp] theorem State.withSinkCloseAnswers_ovr (q : List (Nat × Answer)) : (s.withSinkCloseAnswers q).ovr = s.ovr := rfl
@[simp] theorem State.withSinkCloseAnswers_code (q : List (Nat × Answer)) : (s.withSinkCloseAnswers q).code = s.code := rfl
@[simp] theorem State.withSinkCloseAnswers_result (q : List (Nat × Answer)) : (s.withSinkCloseAnswers q).result = s.result := rfl
@[simp] theorem State.withSinkCloseAnswers_info0 (q : List (Nat × Answer)) : (s.withSinkCloseAnswers q).info0 = s.info0 := rfl
@[simp] theorem State.withSinkCloseAnswers_info1 (q : List (Nat × Answer)) : (s.withSinkCloseAnswers q).info1 = s.info1 := rfl
@[simp] theorem State.withSinkCloseAnswers_args (q : List (Nat × Answer)) : (s.withSinkCloseAnswers q).args = s.args := rfl
@[simp] theorem State.withSinkCloseAnswers_enc (q : List (Nat × Answer)) : (s.withSinkCloseAnswers q).enc = s.enc := rfl
@[simp] theorem State.withSinkCloseAnswers_dec (q : List (Nat × Answer)) : (s.withSinkCloseAnswers q).dec = s.dec := rfl
@[simp] theorem State.withSinkCloseAnswers_dmem (q : List (Nat × Answer)) : (s.withSinkCloseAnswers q).dmem = s.dmem := rfl
@[simp] theorem State.withSinkCloseAnswers_sink (q : List (Nat × Answer)) : (s.withSinkCloseAnswers q).sink = { s.sink with closeAnswers := q } := rfl
@[simp] theorem State.withSinkCloseAnswers_source (q : List (Nat × Answer)) : (s.withSinkCloseAnswers q).source = s.source := rfl
@[simp] theorem State.withSinkCloseAnswers_inputs (q : List (Nat × Answer)) : (s.withSinkCloseAnswers q).inputs = s.inputs := rfl
@[simp] theorem State.withSinkCloseAnswers_latency (q : List (Nat × Answer)) : (s.withSinkCloseAnswers q).latency = s.latency := rfl
@[simp] theorem State.withSinkCloseAnswers_hostLog (q : List (Nat × Answer)) : (s.withSinkCloseAnswers q).hostLog = s.hostLog := rfl
@[simp] theorem State.withSinkCloseAnswers_draws (q : List (Nat × Answer)) : (s.withSinkCloseAnswers q).draws = s.draws := rfl

/-! The source's answers to SrcRead. -/

@[simp] theorem State.withReadAnswers_params (q : List (Nat × ReadAnswer)) : (s.withReadAnswers q).params = s.params := rfl
@[simp] theorem State.withReadAnswers_phase (q : List (Nat × ReadAnswer)) : (s.withReadAnswers q).phase = s.phase := rfl
@[simp] theorem State.withReadAnswers_cmdWord (q : List (Nat × ReadAnswer)) : (s.withReadAnswers q).cmdWord = s.cmdWord := rfl
@[simp] theorem State.withReadAnswers_done (q : List (Nat × ReadAnswer)) : (s.withReadAnswers q).done = s.done := rfl
@[simp] theorem State.withReadAnswers_ovr (q : List (Nat × ReadAnswer)) : (s.withReadAnswers q).ovr = s.ovr := rfl
@[simp] theorem State.withReadAnswers_code (q : List (Nat × ReadAnswer)) : (s.withReadAnswers q).code = s.code := rfl
@[simp] theorem State.withReadAnswers_result (q : List (Nat × ReadAnswer)) : (s.withReadAnswers q).result = s.result := rfl
@[simp] theorem State.withReadAnswers_info0 (q : List (Nat × ReadAnswer)) : (s.withReadAnswers q).info0 = s.info0 := rfl
@[simp] theorem State.withReadAnswers_info1 (q : List (Nat × ReadAnswer)) : (s.withReadAnswers q).info1 = s.info1 := rfl
@[simp] theorem State.withReadAnswers_args (q : List (Nat × ReadAnswer)) : (s.withReadAnswers q).args = s.args := rfl
@[simp] theorem State.withReadAnswers_enc (q : List (Nat × ReadAnswer)) : (s.withReadAnswers q).enc = s.enc := rfl
@[simp] theorem State.withReadAnswers_dec (q : List (Nat × ReadAnswer)) : (s.withReadAnswers q).dec = s.dec := rfl
@[simp] theorem State.withReadAnswers_dmem (q : List (Nat × ReadAnswer)) : (s.withReadAnswers q).dmem = s.dmem := rfl
@[simp] theorem State.withReadAnswers_sink (q : List (Nat × ReadAnswer)) : (s.withReadAnswers q).sink = s.sink := rfl
@[simp] theorem State.withReadAnswers_source (q : List (Nat × ReadAnswer)) : (s.withReadAnswers q).source = { s.source with readAnswers := q } := rfl
@[simp] theorem State.withReadAnswers_inputs (q : List (Nat × ReadAnswer)) : (s.withReadAnswers q).inputs = s.inputs := rfl
@[simp] theorem State.withReadAnswers_latency (q : List (Nat × ReadAnswer)) : (s.withReadAnswers q).latency = s.latency := rfl
@[simp] theorem State.withReadAnswers_hostLog (q : List (Nat × ReadAnswer)) : (s.withReadAnswers q).hostLog = s.hostLog := rfl
@[simp] theorem State.withReadAnswers_draws (q : List (Nat × ReadAnswer)) : (s.withReadAnswers q).draws = s.draws := rfl

/-! The source's answers to SrcSkip. -/

@[simp] theorem State.withSkipAnswers_params (q : List (Nat × SkipAnswer)) : (s.withSkipAnswers q).params = s.params := rfl
@[simp] theorem State.withSkipAnswers_phase (q : List (Nat × SkipAnswer)) : (s.withSkipAnswers q).phase = s.phase := rfl
@[simp] theorem State.withSkipAnswers_cmdWord (q : List (Nat × SkipAnswer)) : (s.withSkipAnswers q).cmdWord = s.cmdWord := rfl
@[simp] theorem State.withSkipAnswers_done (q : List (Nat × SkipAnswer)) : (s.withSkipAnswers q).done = s.done := rfl
@[simp] theorem State.withSkipAnswers_ovr (q : List (Nat × SkipAnswer)) : (s.withSkipAnswers q).ovr = s.ovr := rfl
@[simp] theorem State.withSkipAnswers_code (q : List (Nat × SkipAnswer)) : (s.withSkipAnswers q).code = s.code := rfl
@[simp] theorem State.withSkipAnswers_result (q : List (Nat × SkipAnswer)) : (s.withSkipAnswers q).result = s.result := rfl
@[simp] theorem State.withSkipAnswers_info0 (q : List (Nat × SkipAnswer)) : (s.withSkipAnswers q).info0 = s.info0 := rfl
@[simp] theorem State.withSkipAnswers_info1 (q : List (Nat × SkipAnswer)) : (s.withSkipAnswers q).info1 = s.info1 := rfl
@[simp] theorem State.withSkipAnswers_args (q : List (Nat × SkipAnswer)) : (s.withSkipAnswers q).args = s.args := rfl
@[simp] theorem State.withSkipAnswers_enc (q : List (Nat × SkipAnswer)) : (s.withSkipAnswers q).enc = s.enc := rfl
@[simp] theorem State.withSkipAnswers_dec (q : List (Nat × SkipAnswer)) : (s.withSkipAnswers q).dec = s.dec := rfl
@[simp] theorem State.withSkipAnswers_dmem (q : List (Nat × SkipAnswer)) : (s.withSkipAnswers q).dmem = s.dmem := rfl
@[simp] theorem State.withSkipAnswers_sink (q : List (Nat × SkipAnswer)) : (s.withSkipAnswers q).sink = s.sink := rfl
@[simp] theorem State.withSkipAnswers_source (q : List (Nat × SkipAnswer)) : (s.withSkipAnswers q).source = { s.source with skipAnswers := q } := rfl
@[simp] theorem State.withSkipAnswers_inputs (q : List (Nat × SkipAnswer)) : (s.withSkipAnswers q).inputs = s.inputs := rfl
@[simp] theorem State.withSkipAnswers_latency (q : List (Nat × SkipAnswer)) : (s.withSkipAnswers q).latency = s.latency := rfl
@[simp] theorem State.withSkipAnswers_hostLog (q : List (Nat × SkipAnswer)) : (s.withSkipAnswers q).hostLog = s.hostLog := rfl
@[simp] theorem State.withSkipAnswers_draws (q : List (Nat × SkipAnswer)) : (s.withSkipAnswers q).draws = s.draws := rfl

/-! The source's answers to SrcAvail. -/

@[simp] theorem State.withAvailAnswers_params (q : List (Nat × AvailAnswer)) : (s.withAvailAnswers q).params = s.params := rfl
@[simp] theorem State.withAvailAnswers_phase (q : List (Nat × AvailAnswer)) : (s.withAvailAnswers q).phase = s.phase := rfl
@[simp] theorem State.withAvailAnswers_cmdWord (q : List (Nat × AvailAnswer)) : (s.withAvailAnswers q).cmdWord = s.cmdWord := rfl
@[simp] theorem State.withAvailAnswers_done (q : List (Nat × AvailAnswer)) : (s.withAvailAnswers q).done = s.done := rfl
@[simp] theorem State.withAvailAnswers_ovr (q : List (Nat × AvailAnswer)) : (s.withAvailAnswers q).ovr = s.ovr := rfl
@[simp] theorem State.withAvailAnswers_code (q : List (Nat × AvailAnswer)) : (s.withAvailAnswers q).code = s.code := rfl
@[simp] theorem State.withAvailAnswers_result (q : List (Nat × AvailAnswer)) : (s.withAvailAnswers q).result = s.result := rfl
@[simp] theorem State.withAvailAnswers_info0 (q : List (Nat × AvailAnswer)) : (s.withAvailAnswers q).info0 = s.info0 := rfl
@[simp] theorem State.withAvailAnswers_info1 (q : List (Nat × AvailAnswer)) : (s.withAvailAnswers q).info1 = s.info1 := rfl
@[simp] theorem State.withAvailAnswers_args (q : List (Nat × AvailAnswer)) : (s.withAvailAnswers q).args = s.args := rfl
@[simp] theorem State.withAvailAnswers_enc (q : List (Nat × AvailAnswer)) : (s.withAvailAnswers q).enc = s.enc := rfl
@[simp] theorem State.withAvailAnswers_dec (q : List (Nat × AvailAnswer)) : (s.withAvailAnswers q).dec = s.dec := rfl
@[simp] theorem State.withAvailAnswers_dmem (q : List (Nat × AvailAnswer)) : (s.withAvailAnswers q).dmem = s.dmem := rfl
@[simp] theorem State.withAvailAnswers_sink (q : List (Nat × AvailAnswer)) : (s.withAvailAnswers q).sink = s.sink := rfl
@[simp] theorem State.withAvailAnswers_source (q : List (Nat × AvailAnswer)) : (s.withAvailAnswers q).source = { s.source with availAnswers := q } := rfl
@[simp] theorem State.withAvailAnswers_inputs (q : List (Nat × AvailAnswer)) : (s.withAvailAnswers q).inputs = s.inputs := rfl
@[simp] theorem State.withAvailAnswers_latency (q : List (Nat × AvailAnswer)) : (s.withAvailAnswers q).latency = s.latency := rfl
@[simp] theorem State.withAvailAnswers_hostLog (q : List (Nat × AvailAnswer)) : (s.withAvailAnswers q).hostLog = s.hostLog := rfl
@[simp] theorem State.withAvailAnswers_draws (q : List (Nat × AvailAnswer)) : (s.withAvailAnswers q).draws = s.draws := rfl

/-! The source's answers to SrcClose. -/

@[simp] theorem State.withSrcCloseAnswers_params (q : List (Nat × Answer)) : (s.withSrcCloseAnswers q).params = s.params := rfl
@[simp] theorem State.withSrcCloseAnswers_phase (q : List (Nat × Answer)) : (s.withSrcCloseAnswers q).phase = s.phase := rfl
@[simp] theorem State.withSrcCloseAnswers_cmdWord (q : List (Nat × Answer)) : (s.withSrcCloseAnswers q).cmdWord = s.cmdWord := rfl
@[simp] theorem State.withSrcCloseAnswers_done (q : List (Nat × Answer)) : (s.withSrcCloseAnswers q).done = s.done := rfl
@[simp] theorem State.withSrcCloseAnswers_ovr (q : List (Nat × Answer)) : (s.withSrcCloseAnswers q).ovr = s.ovr := rfl
@[simp] theorem State.withSrcCloseAnswers_code (q : List (Nat × Answer)) : (s.withSrcCloseAnswers q).code = s.code := rfl
@[simp] theorem State.withSrcCloseAnswers_result (q : List (Nat × Answer)) : (s.withSrcCloseAnswers q).result = s.result := rfl
@[simp] theorem State.withSrcCloseAnswers_info0 (q : List (Nat × Answer)) : (s.withSrcCloseAnswers q).info0 = s.info0 := rfl
@[simp] theorem State.withSrcCloseAnswers_info1 (q : List (Nat × Answer)) : (s.withSrcCloseAnswers q).info1 = s.info1 := rfl
@[simp] theorem State.withSrcCloseAnswers_args (q : List (Nat × Answer)) : (s.withSrcCloseAnswers q).args = s.args := rfl
@[simp] theorem State.withSrcCloseAnswers_enc (q : List (Nat × Answer)) : (s.withSrcCloseAnswers q).enc = s.enc := rfl
@[simp] theorem State.withSrcCloseAnswers_dec (q : List (Nat × Answer)) : (s.withSrcCloseAnswers q).dec = s.dec := rfl
@[simp] theorem State.withSrcCloseAnswers_dmem (q : List (Nat × Answer)) : (s.withSrcCloseAnswers q).dmem = s.dmem := rfl
@[simp] theorem State.withSrcCloseAnswers_sink (q : List (Nat × Answer)) : (s.withSrcCloseAnswers q).sink = s.sink := rfl
@[simp] theorem State.withSrcCloseAnswers_source (q : List (Nat × Answer)) : (s.withSrcCloseAnswers q).source = { s.source with closeAnswers := q } := rfl
@[simp] theorem State.withSrcCloseAnswers_inputs (q : List (Nat × Answer)) : (s.withSrcCloseAnswers q).inputs = s.inputs := rfl
@[simp] theorem State.withSrcCloseAnswers_latency (q : List (Nat × Answer)) : (s.withSrcCloseAnswers q).latency = s.latency := rfl
@[simp] theorem State.withSrcCloseAnswers_hostLog (q : List (Nat × Answer)) : (s.withSrcCloseAnswers q).hostLog = s.hostLog := rfl
@[simp] theorem State.withSrcCloseAnswers_draws (q : List (Nat × Answer)) : (s.withSrcCloseAnswers q).draws = s.draws := rfl

/-! The engine waits (R283). -/

@[simp] theorem State.waitIn_params (p : Phase) : (s.waitIn p).params = s.params := rfl
@[simp] theorem State.waitIn_phase (p : Phase) : (s.waitIn p).phase = p := rfl
@[simp] theorem State.waitIn_cmdWord (p : Phase) : (s.waitIn p).cmdWord = s.cmdWord := rfl
@[simp] theorem State.waitIn_done (p : Phase) : (s.waitIn p).done = s.done := rfl
@[simp] theorem State.waitIn_ovr (p : Phase) : (s.waitIn p).ovr = s.ovr := rfl
@[simp] theorem State.waitIn_code (p : Phase) : (s.waitIn p).code = s.code := rfl
@[simp] theorem State.waitIn_result (p : Phase) : (s.waitIn p).result = s.result := rfl
@[simp] theorem State.waitIn_info0 (p : Phase) : (s.waitIn p).info0 = s.info0 := rfl
@[simp] theorem State.waitIn_info1 (p : Phase) : (s.waitIn p).info1 = s.info1 := rfl
@[simp] theorem State.waitIn_args (p : Phase) : (s.waitIn p).args = s.args := rfl
@[simp] theorem State.waitIn_enc (p : Phase) : (s.waitIn p).enc = s.enc := rfl
@[simp] theorem State.waitIn_dec (p : Phase) : (s.waitIn p).dec = s.dec := rfl
@[simp] theorem State.waitIn_dmem (p : Phase) : (s.waitIn p).dmem = s.dmem := rfl
@[simp] theorem State.waitIn_sink (p : Phase) : (s.waitIn p).sink = s.sink := rfl
@[simp] theorem State.waitIn_source (p : Phase) : (s.waitIn p).source = s.source := rfl
@[simp] theorem State.waitIn_inputs (p : Phase) : (s.waitIn p).inputs = s.inputs := rfl
@[simp] theorem State.waitIn_latency (p : Phase) : (s.waitIn p).latency = s.latency := rfl
@[simp] theorem State.waitIn_hostLog (p : Phase) : (s.waitIn p).hostLog = s.hostLog := rfl
@[simp] theorem State.waitIn_draws (p : Phase) : (s.waitIn p).draws = s.draws := rfl

/-! FILL and HB emptied (R173). -/

@[simp] theorem State.encEmpty_params : (s.encEmpty).params = s.params := rfl
@[simp] theorem State.encEmpty_phase : (s.encEmpty).phase = s.phase := rfl
@[simp] theorem State.encEmpty_cmdWord : (s.encEmpty).cmdWord = s.cmdWord := rfl
@[simp] theorem State.encEmpty_done : (s.encEmpty).done = s.done := rfl
@[simp] theorem State.encEmpty_ovr : (s.encEmpty).ovr = s.ovr := rfl
@[simp] theorem State.encEmpty_code : (s.encEmpty).code = s.code := rfl
@[simp] theorem State.encEmpty_result : (s.encEmpty).result = s.result := rfl
@[simp] theorem State.encEmpty_info0 : (s.encEmpty).info0 = s.info0 := rfl
@[simp] theorem State.encEmpty_info1 : (s.encEmpty).info1 = s.info1 := rfl
@[simp] theorem State.encEmpty_args : (s.encEmpty).args = s.args := rfl
@[simp] theorem State.encEmpty_enc : (s.encEmpty).enc = { s.enc with fill := 0, hb := .zero } := rfl
@[simp] theorem State.encEmpty_dec : (s.encEmpty).dec = s.dec := rfl
@[simp] theorem State.encEmpty_dmem : (s.encEmpty).dmem = s.dmem := rfl
@[simp] theorem State.encEmpty_sink : (s.encEmpty).sink = s.sink := rfl
@[simp] theorem State.encEmpty_source : (s.encEmpty).source = s.source := rfl
@[simp] theorem State.encEmpty_inputs : (s.encEmpty).inputs = s.inputs := rfl
@[simp] theorem State.encEmpty_latency : (s.encEmpty).latency = s.latency := rfl
@[simp] theorem State.encEmpty_hostLog : (s.encEmpty).hostLog = s.hostLog := rfl
@[simp] theorem State.encEmpty_draws : (s.encEmpty).draws = s.draws := rfl

/-! EncFail (R175). -/

@[simp] theorem State.encFail_params (info : Word) : (s.encFail info).params = s.params := rfl
@[simp] theorem State.encFail_phase (info : Word) : (s.encFail info).phase = .idle := rfl
@[simp] theorem State.encFail_cmdWord (info : Word) : (s.encFail info).cmdWord = none := rfl
@[simp] theorem State.encFail_done (info : Word) : (s.encFail info).done = true := rfl
@[simp] theorem State.encFail_ovr (info : Word) : (s.encFail info).ovr = s.ovr := rfl
@[simp] theorem State.encFail_code (info : Word) : (s.encFail info).code = .sinkError := rfl
@[simp] theorem State.encFail_result (info : Word) : (s.encFail info).result = 0 := rfl
@[simp] theorem State.encFail_info0 (info : Word) : (s.encFail info).info0 = info := rfl
@[simp] theorem State.encFail_info1 (info : Word) : (s.encFail info).info1 = 0 := rfl
@[simp] theorem State.encFail_args (info : Word) : (s.encFail info).args = s.args := rfl
@[simp] theorem State.encFail_enc (info : Word) : (s.encFail info).enc = ⟨.failed, 0, .zero, ⟨.sinkError, info, 0⟩⟩ := rfl
@[simp] theorem State.encFail_dec (info : Word) : (s.encFail info).dec = s.dec := rfl
@[simp] theorem State.encFail_dmem (info : Word) : (s.encFail info).dmem = s.dmem := rfl
@[simp] theorem State.encFail_sink (info : Word) : (s.encFail info).sink = s.sink := rfl
@[simp] theorem State.encFail_source (info : Word) : (s.encFail info).source = s.source := rfl
@[simp] theorem State.encFail_inputs (info : Word) : (s.encFail info).inputs = s.inputs := rfl
@[simp] theorem State.encFail_latency (info : Word) : (s.encFail info).latency = s.latency := rfl
@[simp] theorem State.encFail_hostLog (info : Word) : (s.encFail info).hostLog = s.hostLog := rfl
@[simp] theorem State.encFail_draws (info : Word) : (s.encFail info).draws = s.draws := rfl

/-! DecFail (R193). -/

@[simp] theorem State.decFail_params (c : Code) (i0 i1 : Word) : (s.decFail c i0 i1).params = s.params := rfl
@[simp] theorem State.decFail_phase (c : Code) (i0 i1 : Word) : (s.decFail c i0 i1).phase = .idle := rfl
@[simp] theorem State.decFail_cmdWord (c : Code) (i0 i1 : Word) : (s.decFail c i0 i1).cmdWord = none := rfl
@[simp] theorem State.decFail_done (c : Code) (i0 i1 : Word) : (s.decFail c i0 i1).done = true := rfl
@[simp] theorem State.decFail_ovr (c : Code) (i0 i1 : Word) : (s.decFail c i0 i1).ovr = s.ovr := rfl
@[simp] theorem State.decFail_code (c : Code) (i0 i1 : Word) : (s.decFail c i0 i1).code = c := rfl
@[simp] theorem State.decFail_info0 (c : Code) (i0 i1 : Word) : (s.decFail c i0 i1).info0 = i0 := rfl
@[simp] theorem State.decFail_info1 (c : Code) (i0 i1 : Word) : (s.decFail c i0 i1).info1 = i1 := rfl
@[simp] theorem State.decFail_args (c : Code) (i0 i1 : Word) : (s.decFail c i0 i1).args = s.args := rfl
@[simp] theorem State.decFail_enc (c : Code) (i0 i1 : Word) : (s.decFail c i0 i1).enc = s.enc := rfl
@[simp] theorem State.decFail_dec (c : Code) (i0 i1 : Word) : (s.decFail c i0 i1).dec = ⟨.failed, 0, 0, .zero, ⟨c, i0, i1⟩⟩ := rfl
@[simp] theorem State.decFail_dmem (c : Code) (i0 i1 : Word) : (s.decFail c i0 i1).dmem = s.dmem := rfl
@[simp] theorem State.decFail_sink (c : Code) (i0 i1 : Word) : (s.decFail c i0 i1).sink = s.sink := rfl
@[simp] theorem State.decFail_source (c : Code) (i0 i1 : Word) : (s.decFail c i0 i1).source = s.source := rfl
@[simp] theorem State.decFail_inputs (c : Code) (i0 i1 : Word) : (s.decFail c i0 i1).inputs = s.inputs := rfl
@[simp] theorem State.decFail_latency (c : Code) (i0 i1 : Word) : (s.decFail c i0 i1).latency = s.latency := rfl
@[simp] theorem State.decFail_hostLog (c : Code) (i0 i1 : Word) : (s.decFail c i0 i1).hostLog = s.hostLog := rfl
@[simp] theorem State.decFail_draws (c : Code) (i0 i1 : Word) : (s.decFail c i0 i1).draws = s.draws := rfl

/-! The decoder's buffer emptied (R194). -/

@[simp] theorem State.decEmptyIn_params (m : DecMode) : (s.decEmptyIn m).params = s.params := rfl
@[simp] theorem State.decEmptyIn_phase (m : DecMode) : (s.decEmptyIn m).phase = s.phase := rfl
@[simp] theorem State.decEmptyIn_cmdWord (m : DecMode) : (s.decEmptyIn m).cmdWord = s.cmdWord := rfl
@[simp] theorem State.decEmptyIn_done (m : DecMode) : (s.decEmptyIn m).done = s.done := rfl
@[simp] theorem State.decEmptyIn_ovr (m : DecMode) : (s.decEmptyIn m).ovr = s.ovr := rfl
@[simp] theorem State.decEmptyIn_code (m : DecMode) : (s.decEmptyIn m).code = s.code := rfl
@[simp] theorem State.decEmptyIn_result (m : DecMode) : (s.decEmptyIn m).result = s.result := rfl
@[simp] theorem State.decEmptyIn_info0 (m : DecMode) : (s.decEmptyIn m).info0 = s.info0 := rfl
@[simp] theorem State.decEmptyIn_info1 (m : DecMode) : (s.decEmptyIn m).info1 = s.info1 := rfl
@[simp] theorem State.decEmptyIn_args (m : DecMode) : (s.decEmptyIn m).args = s.args := rfl
@[simp] theorem State.decEmptyIn_enc (m : DecMode) : (s.decEmptyIn m).enc = s.enc := rfl
@[simp] theorem State.decEmptyIn_dec (m : DecMode) : (s.decEmptyIn m).dec = ⟨m, 0, 0, .zero, s.dec.latch⟩ := rfl
@[simp] theorem State.decEmptyIn_dmem (m : DecMode) : (s.decEmptyIn m).dmem = s.dmem := rfl
@[simp] theorem State.decEmptyIn_sink (m : DecMode) : (s.decEmptyIn m).sink = s.sink := rfl
@[simp] theorem State.decEmptyIn_source (m : DecMode) : (s.decEmptyIn m).source = s.source := rfl
@[simp] theorem State.decEmptyIn_inputs (m : DecMode) : (s.decEmptyIn m).inputs = s.inputs := rfl
@[simp] theorem State.decEmptyIn_latency (m : DecMode) : (s.decEmptyIn m).latency = s.latency := rfl
@[simp] theorem State.decEmptyIn_hostLog (m : DecMode) : (s.decEmptyIn m).hostLog = s.hostLog := rfl
@[simp] theorem State.decEmptyIn_draws (m : DecMode) : (s.decEmptyIn m).draws = s.draws := rfl

/-! A group loaded (R198). -/

@[simp] theorem State.decLoad_params (b : Buf3) (v k : Nat) : (s.decLoad b v k).params = s.params := rfl
@[simp] theorem State.decLoad_phase (b : Buf3) (v k : Nat) : (s.decLoad b v k).phase = s.phase := rfl
@[simp] theorem State.decLoad_cmdWord (b : Buf3) (v k : Nat) : (s.decLoad b v k).cmdWord = s.cmdWord := rfl
@[simp] theorem State.decLoad_done (b : Buf3) (v k : Nat) : (s.decLoad b v k).done = s.done := rfl
@[simp] theorem State.decLoad_ovr (b : Buf3) (v k : Nat) : (s.decLoad b v k).ovr = s.ovr := rfl
@[simp] theorem State.decLoad_code (b : Buf3) (v k : Nat) : (s.decLoad b v k).code = s.code := rfl
@[simp] theorem State.decLoad_result (b : Buf3) (v k : Nat) : (s.decLoad b v k).result = s.result := rfl
@[simp] theorem State.decLoad_info0 (b : Buf3) (v k : Nat) : (s.decLoad b v k).info0 = s.info0 := rfl
@[simp] theorem State.decLoad_info1 (b : Buf3) (v k : Nat) : (s.decLoad b v k).info1 = s.info1 := rfl
@[simp] theorem State.decLoad_args (b : Buf3) (v k : Nat) : (s.decLoad b v k).args = s.args := rfl
@[simp] theorem State.decLoad_enc (b : Buf3) (v k : Nat) : (s.decLoad b v k).enc = s.enc := rfl
@[simp] theorem State.decLoad_dec (b : Buf3) (v k : Nat) : (s.decLoad b v k).dec = { s.dec with buf := b, valid := Fin.ofNat 4 v, cursor := Fin.ofNat 4 k } := rfl
@[simp] theorem State.decLoad_dmem (b : Buf3) (v k : Nat) : (s.decLoad b v k).dmem = s.dmem := rfl
@[simp] theorem State.decLoad_sink (b : Buf3) (v k : Nat) : (s.decLoad b v k).sink = s.sink := rfl
@[simp] theorem State.decLoad_source (b : Buf3) (v k : Nat) : (s.decLoad b v k).source = s.source := rfl
@[simp] theorem State.decLoad_inputs (b : Buf3) (v k : Nat) : (s.decLoad b v k).inputs = s.inputs := rfl
@[simp] theorem State.decLoad_latency (b : Buf3) (v k : Nat) : (s.decLoad b v k).latency = s.latency := rfl
@[simp] theorem State.decLoad_hostLog (b : Buf3) (v k : Nat) : (s.decLoad b v k).hostLog = s.hostLog := rfl
@[simp] theorem State.decLoad_draws (b : Buf3) (v k : Nat) : (s.decLoad b v k).draws = s.draws := rfl

/-! A host read returned. -/

@[simp] theorem State.reply_params (r : HostReply) : (s.reply r).params = s.params := rfl
@[simp] theorem State.reply_phase (r : HostReply) : (s.reply r).phase = s.phase := rfl
@[simp] theorem State.reply_cmdWord (r : HostReply) : (s.reply r).cmdWord = s.cmdWord := rfl
@[simp] theorem State.reply_done (r : HostReply) : (s.reply r).done = s.done := rfl
@[simp] theorem State.reply_ovr (r : HostReply) : (s.reply r).ovr = s.ovr := rfl
@[simp] theorem State.reply_code (r : HostReply) : (s.reply r).code = s.code := rfl
@[simp] theorem State.reply_result (r : HostReply) : (s.reply r).result = s.result := rfl
@[simp] theorem State.reply_info0 (r : HostReply) : (s.reply r).info0 = s.info0 := rfl
@[simp] theorem State.reply_info1 (r : HostReply) : (s.reply r).info1 = s.info1 := rfl
@[simp] theorem State.reply_args (r : HostReply) : (s.reply r).args = s.args := rfl
@[simp] theorem State.reply_enc (r : HostReply) : (s.reply r).enc = s.enc := rfl
@[simp] theorem State.reply_dec (r : HostReply) : (s.reply r).dec = s.dec := rfl
@[simp] theorem State.reply_dmem (r : HostReply) : (s.reply r).dmem = s.dmem := rfl
@[simp] theorem State.reply_sink (r : HostReply) : (s.reply r).sink = s.sink := rfl
@[simp] theorem State.reply_source (r : HostReply) : (s.reply r).source = s.source := rfl
@[simp] theorem State.reply_inputs (r : HostReply) : (s.reply r).inputs = s.inputs := rfl
@[simp] theorem State.reply_latency (r : HostReply) : (s.reply r).latency = s.latency := rfl
@[simp] theorem State.reply_hostLog (r : HostReply) : (s.reply r).hostLog = s.hostLog ++ [r] := rfl
@[simp] theorem State.reply_draws (r : HostReply) : (s.reply r).draws = s.draws := rfl

end Sys2Proof.Machine
end

