-- ==== Sys2Proof/Laws/Ports.lean ====
section
/-! SUPPORT. What offering characters to the sink (R174), pulling groups from the source (R194) and skipping on it (R204) can do. -/

namespace Sys2Proof.Machine

open Sys2Proof.Claims

theorem offered_nil (s : State) : offered s [] s.sink.putAnswers = s := by
  cases s
  rename_i sink _ _ _ _ _
  cases sink
  simp [offered]

/-- Every character is accepted at once (R174). -/
theorem emit_acks (goal : EmitFor) (cs : List Byte) (later : List (Nat × Answer)) (s : State)
    (h : s.sink.putAnswers = acks cs.length ++ later) : emit goal cs s = emitted goal (offered s cs later) := by
  induction cs generalizing s with
  | nil =>
    simp only [acks, List.length_nil, List.replicate_zero, List.nil_append] at h
    subst h
    rw [offered_nil]
    rfl
  | cons c cs ih =>
    have hr : readyAnswer s.sink.putAnswers = some (.ack, acks cs.length ++ later) := by
      rw [h]
      simp [acks, List.replicate_succ, readyAnswer]
    simp only [emit, hr]
    rw [ih _ (by simp)]
    congr 1
    simp [offered, State.issuePut, State.withPutAnswers, State.sinkAccepts]

/-- Character `k` fails: those before it are accepted, those after it are never offered (R174, R175). -/
theorem emit_err (goal : EmitFor) (cs : List Byte) (k : Nat) (c : Byte) (info : Word) (later : List (Nat × Answer))
    (s : State) (h : s.sink.putAnswers = acks k ++ (0, .err info) :: later) (hc : cs[k]? = some c) :
    emit goal cs s = (offering (offered s (cs.take k) later) c).encFail info := by
  induction cs generalizing s k with
  | nil => simp at hc
  | cons d cs ih =>
    cases k with
    | zero =>
      simp only [acks, List.replicate_zero, List.nil_append, List.getElem?_cons_zero, Option.some.injEq] at h hc
      subst hc
      have hr : readyAnswer s.sink.putAnswers = some (.err info, later) := by
        rw [h]
        rfl
      simp only [emit, hr]
      simp [offered, offering, State.issuePut, State.withPutAnswers]
    | succ k =>
      have hr : readyAnswer s.sink.putAnswers = some (.ack, acks k ++ (0, .err info) :: later) := by
        rw [h]
        simp [acks, List.replicate_succ, readyAnswer]
      simp only [emit, hr]
      rw [ih k _ (by simp) (by simpa using hc)]
      congr 1
      simp [offered, offering, State.issuePut, State.withPutAnswers, State.sinkAccepts]

/-- Character `k` is not answered yet: the command waits (R283). -/
theorem emit_wait (goal : EmitFor) (cs : List Byte) (k : Nat) (c : Byte) (later : List (Nat × Answer)) (s : State)
    (h : s.sink.putAnswers = acks k ++ later) (hl : later = [] ∨ ∃ d a q, later = (d + 1, a) :: q)
    (hc : cs[k]? = some c) :
    emit goal cs s = (offering (offered s (cs.take k) later) c).waitIn (.putting c (cs.drop (k + 1)) goal) := by
  induction cs generalizing s k with
  | nil => simp at hc
  | cons d cs ih =>
    cases k with
    | zero =>
      simp only [acks, List.replicate_zero, List.nil_append, List.getElem?_cons_zero, Option.some.injEq] at h hc
      subst hc
      have hr : readyAnswer s.sink.putAnswers = none := by
        rw [h]
        rcases hl with rfl | ⟨_, _, _, rfl⟩ <;> rfl
      simp only [emit, hr]
      subst h
      simp [offered, offering, State.issuePut]
    | succ k =>
      have hr : readyAnswer s.sink.putAnswers = some (.ack, acks k ++ later) := by
        rw [h]
        simp [acks, List.replicate_succ, readyAnswer]
      simp only [emit, hr]
      rw [ih k _ (by simp) (by simpa using hc)]
      congr 1
      simp [offered, offering, State.issuePut, State.withPutAnswers, State.sinkAccepts]

/-- One of the first three characters of a group: the next SrcRead is issued (R191, R194). -/
theorem pullOn_char (c : Byte) (later : List (Nat × ReadAnswer)) (got : List Byte) (goal : PullFor) (s : State)
    (h : got.length ≤ 2) :
    pullOn ((0, .char c) :: later) got goal s = pullOn later (got ++ [c]) goal (s.issueSource .read) := by
  match got, h with
  | [], _ => rfl
  | [_], _ => rfl
  | [_, _], _ => rfl

/-- The fourth character of a group: the group is decoded (R194, R199). -/
theorem pullOn_last (c0 c1 c2 c : Byte) (later : List (Nat × ReadAnswer)) (goal : PullFor) (s : State) :
    pullOn ((0, .char c) :: later) [c0, c1, c2] goal s =
      match groupDecode ⟨c0, c1, c2, c⟩ true with
      | .err code pos => (s.withReadAnswers later).decFail .invalidCharacter (zext code) (toWord pos)
      | .ok bytes v =>
        match goal with
        | .read => ((s.withReadAnswers later).decLoad bytes v 1).finish .ok (zext bytes.b0) 0 0
        | .skip total left =>
          if left ≤ v then
            ((s.withReadAnswers later).decLoad bytes v left).finish .ok (toWord (total + left)) 0 0
          else pullOn later [] (.skip (total + v) (left - v)) ((s.decLoad bytes v v).issueSource .read) := rfl

theorem pullOn_eof (later : List (Nat × ReadAnswer)) (got : List Byte) (goal : PullFor) (s : State) :
    pullOn ((0, .eof) :: later) got goal s =
      if got.length = 0 then pullEof goal (s.withReadAnswers later)
      else (s.withReadAnswers later).decFail .unexpectedEndOfInput (toWord got.length) 0 := rfl

theorem pullOn_err (info : Word) (later : List (Nat × ReadAnswer)) (got : List Byte) (goal : PullFor) (s : State) :
    pullOn ((0, .err info) :: later) got goal s = (s.withReadAnswers later).decFail .sourceError info 0 := rfl

/-- The next character is not answered yet: the command waits (R283). -/
theorem pullOn_wait (later : List (Nat × ReadAnswer)) (got : List Byte) (goal : PullFor) (s : State)
    (hl : later = [] ∨ ∃ d a q, later = (d + 1, a) :: q) :
    pullOn later got goal s = (s.withReadAnswers later).waitIn (.pulling got goal) := by
  rcases hl with rfl | ⟨d, a, q, rfl⟩
  · rfl
  · cases a <;> rfl

/-- Some characters of a group that is not complete yet. -/
theorem pullOn_chars (cs got : List Byte) (later : List (Nat × ReadAnswer)) (goal : PullFor) (s : State)
    (h : got.length + cs.length ≤ 3) :
    pullOn (chars cs ++ later) got goal s =
      pullOn later (got ++ cs) goal
        { s with source := { s.source with log := s.source.log ++ List.replicate cs.length SrcReq.read } } := by
  induction cs generalizing got s with
  | nil => simp [chars]
  | cons c cs ih =>
    simp only [List.length_cons] at h
    have e : chars (c :: cs) ++ later = (0, .char c) :: (chars cs ++ later) := rfl
    rw [e, pullOn_char _ _ _ _ _ (by omega), ih _ _ (by simp; omega)]
    simp [State.issueSource, List.replicate_succ]

/-- The rest of a group comes at once: the group is decoded (R194). -/
theorem pullOn_group (g : TextGroup) (got cs : List Byte) (later : List (Nat × ReadAnswer)) (goal : PullFor)
    (s : State) (hg : g.chars = got ++ cs) (hc : cs ≠ []) :
    pullOn (chars cs ++ later) got goal s =
      let t := { s with source := { s.source with log := s.source.log ++ List.replicate (cs.length - 1) SrcReq.read } }
      match groupDecode g true with
      | .err code pos => (t.withReadAnswers later).decFail .invalidCharacter (zext code) (toWord pos)
      | .ok bytes v =>
        match goal with
        | .read => ((t.withReadAnswers later).decLoad bytes v 1).finish .ok (zext bytes.b0) 0 0
        | .skip total left =>
          if left ≤ v then
            ((t.withReadAnswers later).decLoad bytes v left).finish .ok (toWord (total + left)) 0 0
          else pullOn later [] (.skip (total + v) (left - v)) ((t.decLoad bytes v v).issueSource .read) := by
  obtain ⟨init, c, rfl⟩ : ∃ init c, cs = init ++ [c] :=
    ⟨cs.dropLast, cs.getLast hc, (List.dropLast_append_getLast hc).symm⟩
  have hl : got.length + init.length = 3 := by
    have := congrArg List.length hg
    simp [TextGroup.chars] at this
    omega
  have e : chars (init ++ [c]) ++ later = chars init ++ ((0, .char c) :: later) := by simp [chars]
  rw [e, pullOn_chars _ _ _ _ _ (by omega)]
  obtain ⟨c0, c1, c2, c3⟩ := g
  have h3 : got ++ init = [c0, c1, c2] ∧ c = c3 := by
    have hsplit : [c0, c1, c2] ++ [c3] = (got ++ init) ++ [c] := by simpa [TextGroup.chars] using hg
    have := List.append_inj' hsplit rfl
    exact ⟨this.1.symm, by simpa using this.2.symm⟩
  rw [h3.1, h3.2, pullOn_last]
  simp only [List.length_append, List.length_cons, List.length_nil, Nat.zero_add, Nat.add_sub_cancel]

/-- An answer that is not ready is late. -/
theorem readyAnswer_eq_none_iff {α : Type} (q : List (Nat × α)) : readyAnswer q = none ↔ Late q := by
  unfold Late
  rcases q with _ | ⟨⟨_ | d, a⟩, q⟩ <;> simp [readyAnswer]

/-- An answer that is ready is the first, at no more steps. -/
theorem readyAnswer_eq_some_iff {α : Type} (q : List (Nat × α)) (a : α) (rest : List (Nat × α)) :
    readyAnswer q = some (a, rest) ↔ q = (0, a) :: rest := by
  rcases q with _ | ⟨⟨_ | d, b⟩, q⟩ <;> simp [readyAnswer]

/-- Waiting for SinkClose does what R176 says. -/
theorem awaitSinkClose_sinkCloses (sent : Nat) (s : State) : SinkCloses sent s (awaitSinkClose sent s) := by
  unfold awaitSinkClose
  split
  · rename_i a rest h
    rw [readyAnswer_eq_some_iff] at h
    cases a with
    | ack => exact .closed h
    | err info => exact .failed h
  · rename_i h
    exact .late ((readyAnswer_eq_none_iff _).1 h)

/-- Once the last character is accepted, the command goes on as R173 and R176 say. -/
theorem offers_emitted {goal : EmitFor} {c : Byte} {s : State} {q : List (Nat × Answer)}
    (h : s.sink.putAnswers = (0, .ack) :: q) : Offers goal c [] s (emitted goal (accepting s c q)) := by
  cases goal with
  | write => exact .wrote h
  | close => exact .flushed h (awaitSinkClose_sinkCloses 4 _)

/-- EncEmit does what R174 says. -/
theorem emit_offers (goal : EmitFor) (cs : List Byte) :
    ∀ (c : Byte) (s : State), Offers goal c cs (offering s c) (emit goal (c :: cs) s) := by
  induction cs with
  | nil =>
    intro c s
    simp only [emit]
    split
    · rename_i later h
      exact offers_emitted (s := offering s c) ((readyAnswer_eq_some_iff _ _ _).1 h)
    · rename_i info later h
      exact .failed ((readyAnswer_eq_some_iff _ _ _).1 h)
    · rename_i h
      exact .late ((readyAnswer_eq_none_iff _).1 h)
  | cons d cs ih =>
    intro c s
    rw [emit]
    split
    · rename_i later h
      exact .accepted ((readyAnswer_eq_some_iff _ _ _).1 h) (ih d _)
    · rename_i info later h
      exact .failed ((readyAnswer_eq_some_iff _ _ _).1 h)
    · rename_i h
      exact .late ((readyAnswer_eq_none_iff _).1 h)

/-- Waiting for a SinkPut does what R174 says. -/
theorem awaitPut_offers {goal : EmitFor} {c : Byte} {cs : List Byte} {s : State} (hp : s.phase = .putting c cs goal) :
    Offers goal c cs s (awaitPut goal c cs s) := by
  unfold awaitPut
  split
  · rename_i later h
    rw [readyAnswer_eq_some_iff] at h
    cases cs with
    | nil => exact offers_emitted h
    | cons d cs => exact .accepted h (emit_offers goal cs d _)
  · rename_i info later h
    exact .failed ((readyAnswer_eq_some_iff _ _ _).1 h)
  · rename_i h
    have e : s = { s with phase := .putting c cs goal } := by cases s; subst hp; rfl
    rw [e]
    exact .late ((readyAnswer_eq_none_iff _).1 h)

/-- PullGroup and what follows it do what R194, R200, R204 and R211 say. -/
theorem pullOn_pulls (q : List (Nat × ReadAnswer)) :
    ∀ (got : List Byte) (goal : PullFor) (s : State), got.length ≤ 3 →
      Pulls goal got (readAnswersLeft s q) (pullOn q got goal s) := by
  induction q with
  | nil => exact fun got goal s _ => .late (.inl rfl)
  | cons x q ih =>
    intro got goal s hg
    obtain ⟨_ | d, a⟩ := x
    · cases a with
      | char c =>
        by_cases h3 : got.length = 3
        · obtain ⟨c0, c1, c2, rfl⟩ : ∃ c0 c1 c2, got = [c0, c1, c2] := by
            match got, h3 with
            | [c0, c1, c2], _ => exact ⟨c0, c1, c2, rfl⟩
          rw [pullOn_last]
          split
          · rename_i x k hd
            exact .invalid (g := ⟨c0, c1, c2, c⟩) rfl rfl hd
          · rename_i b v hd
            cases goal with
            | read => exact .readMet (g := ⟨c0, c1, c2, c⟩) rfl rfl hd
            | skip total left =>
              simp only
              split
              · rename_i hl
                exact .skipMet (g := ⟨c0, c1, c2, c⟩) rfl rfl hd hl
              · rename_i hl
                exact .skipMore (g := ⟨c0, c1, c2, c⟩) rfl rfl hd (Nat.lt_of_not_le hl) 
                  (ih [] (.skip (total + v) (left - v)) ((s.decLoad b v v).issueSource .read) (by simp))
        · rw [pullOn_char _ _ _ _ _ (by omega)]
          exact .character rfl (by omega) (ih (got ++ [c]) goal (s.issueSource .read) (by simp; omega))
      | eof =>
        rw [pullOn_eof]
        split
        · rename_i h0
          obtain rfl := List.eq_nil_of_length_eq_zero h0
          cases goal with
          | read => exact .readEnds rfl
          | skip total left => exact .skipEnds rfl
        · rename_i h0
          exact .cutShort rfl (by simpa using h0)
      | err info => exact .failed rfl
    · rw [pullOn_wait _ _ _ _ (.inr ⟨d, a, q, rfl⟩)]
      exact .late (.inr ⟨d, a, q, rfl⟩)

theorem pullGroup_pulls (goal : PullFor) (s : State) : Pulls goal [] (requesting s .read) (pullGroup goal s) :=
  pullOn_pulls s.source.readAnswers [] goal (s.issueSource .read) (by simp)

/-- Waiting for a SrcSkip does what R204 and R207-R210 say, of an answer the interface admits. -/
theorem awaitSkip_skips {asked total left : Nat} {s : State} (ha : asked = 4 * (left / 3))
    (hw : ∀ w q, s.source.skipAnswers = (0, .skipped w) :: q → w.toNat ≤ asked) :
    ∃ u, awaitSkip asked total left s = .next u ∧ Skips asked total left s u := by
  unfold awaitSkip
  split
  · rename_i a q h
    rw [readyAnswer_eq_some_iff] at h
    cases a with
    | err info => exact ⟨_, rfl, .failed h⟩
    | skipped w =>
      have := hw w q h
      simp only [skipAnswered]
      split
      · omega
      · split
        · rename_i h4
          exact ⟨_, rfl, .cutShort h this h4⟩
        · split
          · rename_i h4 hlt
            exact ⟨_, rfl, .exhausted h hlt (by omega)⟩
          · rename_i h4 hlt
            have e : w.toNat = asked := by omega
            refine ⟨_, rfl, ?_⟩
            unfold skipRest
            rw [e]
            split
            · have el : left = asked / 4 * 3 := by omega
              have := Skips.met (s := s) (total := total) h e el
              rwa [← el]
            · exact .pulls h e (by omega) (pullGroup_pulls _ _)
  · rename_i h
    exact ⟨_, rfl, .late ((readyAnswer_eq_none_iff _).1 h)⟩

end Sys2Proof.Machine
end

