-- ==== Sys2Proof/Laws/Invariant.lean ====
section
/-! SUPPORT. What the shared operations keep of the machine's invariant (R41, R43, R45, R47, R50). -/

namespace Sys2Proof.Machine

open Sys2Proof.Claims

/-- The part of the invariant that no phase of the engine suspends. -/
structure Sound (s : State) : Prop where
  params : s.params.wf = true
  dmemWf : Memory.wf s.dmem = true
  dmemInside : Memory.inside s.dmem s.params.dmemSize = true
  encLatch : s.enc.latchWf = true
  decWf : s.dec.wf = true
  decLatch : s.dec.latchWf = true

theorem MachineInv.sound {s : State} (h : MachineInv s) : Sound s :=
  ⟨h.params, h.dmemWf, h.dmemInside, h.encLatch, h.decWf, h.decLatch⟩

/-- `Sound` speaks of the parameters, DMEM, the encoder's latch and the decoder alone. -/
theorem Sound.eqv {s t : State} (h : Sound s)
    (e : t.params = s.params ∧ t.dmem = s.dmem ∧ t.enc.latchWf = s.enc.latchWf ∧ t.dec = s.dec) : Sound t := by
  obtain ⟨e1, e2, e3, e4⟩ := e
  refine ⟨e1 ▸ h.params, e2 ▸ h.dmemWf, ?_, ?_, ?_, ?_⟩
  · rw [e1, e2]
    exact h.dmemInside
  · rw [e3]
    exact h.encLatch
  · rw [e4]
    exact h.decWf
  · rw [e4]
    exact h.decLatch

/-- Completion of a command leaves the invariant (R232). -/
theorem Sound.finish {s : State} (h : Sound s) (he : s.enc.wf = true) (c : Code) (r i0 i1 : Word) :
    MachineInv (s.finish c r i0 i1) where
  params := h.params
  dmemWf := h.dmemWf
  dmemInside := h.dmemInside
  latched := rfl
  notDone := by simp [State.busy]
  encWf := fun _ => he
  encLatch := h.encLatch
  decWf := h.decWf
  decLatch := h.decLatch
  phaseWf := trivial

/-- EncFail leaves the invariant (R175). -/
theorem Sound.encFail {s : State} (h : Sound s) (info : Word) : MachineInv (s.encFail info) := by
  unfold State.encFail State.raise
  apply Sound.finish
  · exact ⟨h.params, h.dmemWf, h.dmemInside, by simp [Encoder.latchWf], h.decWf, h.decLatch⟩
  · simp [Encoder.wf, Buf3.zero]

/-- Waiting for a port leaves the invariant (R283). -/
theorem Sound.wait {s : State} (h : Sound s) (p : Phase) (hw : s.cmdWord.isSome = true) (hd : s.done = false)
    (hne : p ≠ .idle) (he : p.inEncoder = true ∨ s.enc.wf = true) (hp : Phase.wf (s.waitIn p)) :
    MachineInv (s.waitIn p) where
  params := h.params
  dmemWf := h.dmemWf
  dmemInside := h.dmemInside
  latched := by
    show s.cmdWord.isSome = _
    rw [hw]
    cases p <;> simp_all [State.busy, State.waitIn]
  notDone := fun _ => hd
  encWf := fun hh => by
    rcases he with he | he
    · simp [State.waitIn, he] at hh
    · exact he
  encLatch := h.encLatch
  decWf := h.decWf
  decLatch := h.decLatch
  phaseWf := hp

/-- The end of ENC_CLOSE (R176). -/
theorem closeSink_inv {s : State} (h : Sound s) (sent : Nat) (hw : s.cmdWord = some (encode .encClose))
    (hd : s.done = false) (hm : s.enc.mode = .opened) :
    MachineInv (closeSink sent s) := by
  simp only [closeSink, awaitSinkClose]
  split
  · rename_i a _ _
    cases a
    · simp only [sinkClosed]
      apply Sound.finish
      · refine ⟨h.params, h.dmemWf, h.dmemInside, ?_, h.decWf, h.decLatch⟩
        have := h.encLatch
        simp only [Encoder.latchWf, hm] at this
        simpa [Encoder.latchWf] using this
      · simp [Encoder.wf, Buf3.zero]
    · apply Sound.encFail
      exact ⟨h.params, h.dmemWf, h.dmemInside, h.encLatch, h.decWf, h.decLatch⟩
  · apply Sound.wait
    · exact ⟨h.params, h.dmemWf, h.dmemInside, h.encLatch, h.decWf, h.decLatch⟩
    · simp [hw]
    · exact hd
    · simp
    · right; simp [Encoder.wf, Buf3.zero]
    · exact ⟨hw, hm, rfl⟩

/-- EncEmit, and what follows it (R174). -/
theorem emit_inv (goal : EmitFor) (cs : List Byte) (s : State) (h : Sound s)
    (hw : s.cmdWord = some (encode goal.command)) (hd : s.done = false) (hm : s.enc.mode = .opened)
    (hc : cs.all sinkChar = true) (hl : cs.length ≤ 4) : MachineInv (emit goal cs s) := by
  induction cs generalizing s with
  | nil =>
    cases goal
    · simp only [emit, emitted]
      apply Sound.finish
      · exact ⟨h.params, h.dmemWf, h.dmemInside, h.encLatch, h.decWf, h.decLatch⟩
      · simp [Encoder.wf, Buf3.zero]
    · exact closeSink_inv h _ hw hd hm
  | cons c cs ih =>
    simp only [emit]
    split
    · refine ih (((s.issuePut c).withPutAnswers _).sinkAccepts c) (h.eqv ⟨rfl, rfl, rfl, rfl⟩) hw hd hm ?_ ?_
      · simp at hc ⊢; exact hc.2
      · simp at hl; omega
    · apply Sound.encFail; exact h.eqv ⟨rfl, rfl, rfl, rfl⟩
    · apply Sound.wait
      · exact ⟨h.params, h.dmemWf, h.dmemInside, h.encLatch, h.decWf, h.decLatch⟩
      · simp [hw]
      · exact hd
      · simp
      · left; rfl
      · refine ⟨hw, hm, hc, by simp at hl; omega⟩

@[simp] theorem sinkChar_alpha (s : Sextet) : sinkChar (alpha s) = true := by simp [sinkChar]

@[simp] theorem sinkChar_pad : sinkChar padCode = true := by decide

/-- The packing unit offers characters of the alphabet and pads alone (R171). -/
theorem pack3_sinkChar (b0 b1 b2 : Byte) : (pack3 b0 b1 b2).chars.all sinkChar = true := by
  simp [pack3, TextGroup.chars]

theorem pack2_sinkChar (b0 b1 : Byte) : (pack2 b0 b1).chars.all sinkChar = true := by
  simp [pack2, pack3, TextGroup.chars]

theorem pack1_sinkChar (b0 : Byte) : (pack1 b0).chars.all sinkChar = true := by
  simp [pack1, pack3, TextGroup.chars]

/-- A state in which the command executes: its word is latched, DONE = 0 and R41 holds. -/
structure Ready (i : Instr) (s : State) : Prop extends Sound s where
  encWf : s.enc.wf = true
  word : s.cmdWord = some (encode i)
  done : s.done = false

theorem Ready.finish {i : Instr} {s : State} (h : Ready i s) (c : Code) (r i0 i1 : Word) :
    MachineInv (s.finish c r i0 i1) := h.toSound.finish h.encWf _ _ _ _

/-- DecFail leaves the invariant (R193). -/
theorem Sound.decFail {s : State} (h : Sound s) (he : s.enc.wf = true) (c : Code) (i0 i1 : Word)
    (hc : c = .sourceError ∨ c = .unexpectedEndOfInput ∨ c = .invalidCharacter) :
    MachineInv (s.decFail c i0 i1) := by
  unfold State.decFail State.raise
  apply Sound.finish
  · refine ⟨h.params, h.dmemWf, h.dmemInside, h.encLatch, by simp [Decoder.wf, Buf3.zero], ?_⟩
    rcases hc with rfl | rfl | rfl <;> simp [Decoder.latchWf]
  · exact he

/-- The decoder is emptied (R194, R210, R215). -/
theorem Sound.decEmptyIn {s : State} (h : Sound s) (hm : s.dec.mode ≠ .failed) (m : DecMode) (hm' : m ≠ .failed) :
    Sound (s.decEmptyIn m) := by
  refine ⟨h.params, h.dmemWf, h.dmemInside, h.encLatch, by simp [Decoder.wf, Buf3.zero], ?_⟩
  have := h.decLatch
  unfold Decoder.latchWf at this ⊢
  cases m with
  | failed => contradiction
  | active | eoi | closed =>
    simp only [State.decEmptyIn_dec]
    revert this
    cases hh : s.dec.mode <;> simp_all

/-- A group is loaded (R198). -/
theorem Sound.decLoad {s : State} (h : Sound s) (hm : s.dec.mode = .active) {g : TextGroup} {b : Buf3} {v : Nat}
    (hg : groupDecode g true = .ok b v) (k : Nat) (hk : k ≤ v) : Sound (s.decLoad b v k) := by
  refine ⟨h.params, h.dmemWf, h.dmemInside, h.encLatch, ?_, h.decLatch⟩
  have hr := groupDecode_valid_range hg
  have hz := groupDecode_zero_past_valid hg
  have e1 : (Fin.ofNat 4 v).val = v := by
    simp [Fin.ofNat]
    omega
  have e2 : (Fin.ofNat 4 k).val = k := by
    simp [Fin.ofNat]
    omega
  simp only [Decoder.wf, State.decLoad_dec, e1, e2, hm]
  have : v = 1 ∨ v = 2 ∨ v = 3 := by omega
  rcases this with rfl | rfl | rfl <;> simp_all

theorem Sound.source {s : State} (h : Sound s) (x : SourcePort) : Sound { s with source := x } :=
  ⟨h.params, h.dmemWf, h.dmemInside, h.encLatch, h.decWf, h.decLatch⟩

/-- PullGroup, and what DEC_READ and DEC_SKIP do with each group (R194). -/
theorem pullOn_inv (n : Nat) :
    ∀ (later : List (Nat × ReadAnswer)), later.length ≤ n →
      ∀ (got : List Byte) (goal : PullFor) (s : State), Sound s → s.enc.wf = true →
        s.cmdWord = some (encode goal.command) → s.done = false → s.dec.mode = .active → got.length ≤ 3 →
        goal.wf = true → MachineInv (pullOn later got goal s) := by
  have waits : ∀ (later : List (Nat × ReadAnswer)) (got : List Byte) (goal : PullFor) (s : State),
      (later = [] ∨ ∃ d a q, later = (d + 1, a) :: q) → Sound s → s.enc.wf = true →
        s.cmdWord = some (encode goal.command) → s.done = false → s.dec.mode = .active → got.length ≤ 3 →
        goal.wf = true → MachineInv (pullOn later got goal s) := by
    intro later got goal s hl h he hw hd hm hg hgo
    rw [pullOn_wait _ _ _ _ hl]
    refine Sound.wait (h.source _) _ ?_ hd (by simp) (Or.inr he) ⟨hw, hm, hg, hgo⟩
    show s.cmdWord.isSome = true
    simp [hw]
  induction n with
  | zero =>
    intro later hl got goal s
    have : later = [] := List.length_eq_zero_iff.1 (by omega)
    subst this
    exact waits _ _ _ _ (Or.inl rfl)
  | succ n ih =>
    intro later hl got goal s h he hw hd hm hg hgo
    match later, hl with
    | [], _ => exact waits _ _ _ _ (Or.inl rfl) h he hw hd hm hg hgo
    | (d + 1, a) :: later, _ => exact waits _ _ _ _ (Or.inr ⟨d, a, later, rfl⟩) h he hw hd hm hg hgo
    | (0, .err info) :: later, _ =>
      rw [pullOn_err]
      refine Sound.decFail (h.eqv ?_) ?_ _ _ _ (Or.inl rfl) <;> first | exact ⟨rfl, rfl, rfl, rfl⟩ | exact he
    | (0, .eof) :: later, _ =>
      rw [pullOn_eof]
      split
      · cases goal <;>
          refine Sound.finish (Sound.decEmptyIn (h.eqv ?_) (by simp [hm]) _ (by simp)) ?_ _ _ _ _ <;>
          first | exact ⟨rfl, rfl, rfl, rfl⟩ | exact he
      · refine Sound.decFail (h.eqv ?_) ?_ _ _ _ (Or.inr (Or.inl rfl)) <;>
          first | exact ⟨rfl, rfl, rfl, rfl⟩ | exact he
    | (0, .char c) :: later, hl =>
      have hl' : later.length ≤ n := by simpa using hl
      match got, hg with
      | [], _ | [_], _ | [_, _], _ =>
        rw [pullOn_char _ _ _ _ _ (by simp)]
        exact ih _ hl' _ _ _ (h.source _) he hw hd hm (by simp) hgo
      | [c0, c1, c2], _ =>
        rw [pullOn_last]
        split
        · refine Sound.decFail (h.eqv ?_) ?_ _ _ _ (Or.inr (Or.inr rfl)) <;>
            first | exact ⟨rfl, rfl, rfl, rfl⟩ | exact he
        · rename_i b v hgd
          have hr := groupDecode_valid_range hgd
          have hs : Sound (s.withReadAnswers later) := h.source _
          split
          · exact Sound.finish (hs.decLoad hm hgd 1 (by omega)) he _ _ _ _
          · rename_i total left
            simp only [PullFor.wf, Bool.and_eq_true, decide_eq_true_eq] at hgo
            split
            · exact Sound.finish (hs.decLoad hm hgd left (by omega)) he _ _ _ _
            · refine ih _ hl' [] (.skip (total + v) (left - v)) ((s.decLoad b v v).issueSource .read)
                ((Sound.decLoad h hm hgd v (by omega)).source _) he hw hd hm (by simp) ?_
              simp only [PullFor.wf, Bool.and_eq_true, decide_eq_true_eq]
              omega

theorem pullGroup_inv {s : State} (goal : PullFor) (h : Sound s) (he : s.enc.wf = true)
    (hw : s.cmdWord = some (encode goal.command)) (hd : s.done = false) (hm : s.dec.mode = .active)
    (hgo : goal.wf = true) : MachineInv (pullGroup goal s) :=
  pullOn_inv _ _ (Nat.le_refl _) _ _ _ (h.source _) he hw hd hm (by simp) hgo

/-- Step 3 of DEC_SKIP (R211). -/
theorem skipRest_inv {s : State} (total left : Nat) (h : Sound s) (he : s.enc.wf = true)
    (hw : s.cmdWord = some (encode .decSkip)) (hd : s.done = false) (hm : s.dec.mode = .active)
    (hl : left ≤ 2) : MachineInv (skipRest total left s) := by
  unfold skipRest
  split
  · exact h.finish he _ _ _ _
  · refine pullGroup_inv _ h he hw hd hm ?_
    simp only [PullFor.wf, Bool.and_eq_true, decide_eq_true_eq]
    omega

/-- The answer to the fast path's SrcSkip (R207-R210). -/
theorem awaitSkip_inv {s t : State} (asked total left : Nat) (h : Sound s) (he : s.enc.wf = true)
    (hw : s.cmdWord = some (encode .decSkip)) (hd : s.done = false) (hm : s.dec.mode = .active)
    (hl : 0 < left / 3) (hc : asked = 4 * (left / 3)) (e : awaitSkip asked total left s = .next t) :
    MachineInv t := by
  unfold awaitSkip at e
  split at e
  · rename_i a rest _
    cases a with
    | err info =>
      cases e
      refine Sound.decFail (h.eqv ?_) ?_ _ _ _ (Or.inl rfl) <;> first | exact ⟨rfl, rfl, rfl, rfl⟩ | exact he
    | skipped n =>
      simp only [skipAnswered] at e
      split at e
      · cases e
      · split at e
        · cases e
          refine Sound.decFail (h.eqv ?_) ?_ _ _ _ (Or.inr (Or.inl rfl)) <;>
            first | exact ⟨rfl, rfl, rfl, rfl⟩ | exact he
        · split at e
          · cases e
            refine Sound.finish (Sound.decEmptyIn (h.eqv ?_) (by simp [hm]) _ (by simp)) ?_ _ _ _ _ <;>
              first | exact ⟨rfl, rfl, rfl, rfl⟩ | exact he
          · cases e
            exact skipRest_inv _ _ (h.source _) he hw hd hm (by omega)
  · cases e
    exact Sound.wait h _ (by simp [hw]) hd (by simp) (Or.inr he) ⟨hw, hm, hl, hc⟩

/-- The answer to SrcAvail (R213). -/
theorem awaitAvail_inv {s : State} (h : Sound s) (he : s.enc.wf = true)
    (hw : s.cmdWord = some (encode .decAvail)) (hd : s.done = false) (hm : s.dec.mode = .active) :
    MachineInv (awaitAvail s) := by
  unfold awaitAvail
  split
  · rename_i a _ _
    cases a <;> dsimp only [availAnswered]
    · refine Sound.finish (h.eqv ?_) ?_ _ _ _ _ <;> first | exact ⟨rfl, rfl, rfl, rfl⟩ | exact he
    · refine Sound.decFail (h.eqv ?_) ?_ _ _ _ (Or.inl rfl) <;> first | exact ⟨rfl, rfl, rfl, rfl⟩ | exact he
  · exact Sound.wait h _ (by simp [hw]) hd (by simp) (Or.inr he) ⟨hw, hm⟩

/-- The answer to SrcClose (R215). -/
theorem awaitSourceClose_inv {s : State} (h : Sound s) (he : s.enc.wf = true)
    (hw : s.cmdWord = some (encode .decClose)) (hd : s.done = false)
    (hm : s.dec.mode = .active ∨ s.dec.mode = .eoi) : MachineInv (awaitSourceClose s) := by
  unfold awaitSourceClose
  have hnf : s.dec.mode ≠ .failed := by rcases hm with h | h <;> simp [h]
  split
  · rename_i a rest _
    have hs : Sound (s.withSrcCloseAnswers rest) := h.source _
    cases a <;> dsimp only [sourceClosed]
    · exact Sound.finish (hs.decEmptyIn hnf .closed (by simp)) he _ _ _ _
    · refine Sound.decFail (h.eqv ?_) ?_ _ _ _ (Or.inl rfl) <;> first | exact ⟨rfl, rfl, rfl, rfl⟩ | exact he
  · exact Sound.wait h _ (by simp [hw]) hd (by simp) (Or.inr he) ⟨hw, hm⟩

/-- A store inside DMEM (R56). -/
theorem Sound.stored {s : State} (h : Sound s) (a : Nat) (vs : List Byte)
    (hv : vs = [] ∨ a + vs.length ≤ s.params.dmemSize) (d : Nat) :
    Sound { s with dmem := Memory.writeBytes s.dmem a vs, draws := d } :=
  ⟨h.params, Memory.writeBytes_wf h.dmemWf _ _, Memory.writeBytes_inside _ h.dmemInside hv, h.encLatch, h.decWf,
    h.decLatch⟩

end Sys2Proof.Machine
end

