-- ==== Sys2Proof/Laws/PerInstr.lean ====
section
/-! SUPPORT. The round trip of the encoding, command by command (R70-R73). -/

namespace Sys2Proof.Laws.RoundTrip

/-- The command's word is legal and decodes to the command. -/
def Statement (i : Instr) : Prop :=
  Instr.wf i = true ∧ commandWordWf (encode i) = true ∧ decode (encode i) = .ok i

theorem nop : Statement .nop := by unfold Statement; decide
theorem encode : Statement .encode := by unfold Statement; decide
theorem decode : Statement .decode := by unfold Statement; decide
theorem decodeAlloc : Statement .decodeAlloc := by unfold Statement; decide
theorem validate : Statement .validate := by unfold Statement; decide
theorem tblAlpha : Statement .tblAlpha := by unfold Statement; decide
theorem tblInv : Statement .tblInv := by unfold Statement; decide
theorem encOpen : Statement .encOpen := by unfold Statement; decide
theorem encWrite : Statement .encWrite := by unfold Statement; decide
theorem encClose : Statement .encClose := by unfold Statement; decide
theorem decOpen : Statement .decOpen := by unfold Statement; decide
theorem decRead : Statement .decRead := by unfold Statement; decide
theorem decSkip : Statement .decSkip := by unfold Statement; decide
theorem decAvail : Statement .decAvail := by unfold Statement; decide
theorem decClose : Statement .decClose := by unfold Statement; decide

end Sys2Proof.Laws.RoundTrip
end

