-- ==== Sys2Proof/Tests/Slice0.lean ====
section
/-! SUPPORT. Tests from 95_test_vectors.md and from the encodings of R70-R74, and a witness for the hypotheses of every statement. -/

open Sys2Proof Sys2Proof.Machine Sys2Proof.Claims

namespace Sys2Proof.Tests

set_option Elab.async false

/-! ## What is ill formed is refused -/

/-- R70, R74: reserved bits set, and the unassigned opcodes at both ends of each gap. -/
theorem test_ill_formed_command_words :
    [0x00000100#32, 0x80000000#32, 0x00000101#32, 0x05#32, 0x07#32, 0x0A#32, 0x0F#32, 0x13#32, 0x1F#32, 0x25#32,
      0xFF#32].all (fun w => !commandWordWf w) = true := by decide

/-- R74: the gaps end where the assigned opcodes begin. -/
theorem test_opcode_gaps :
    [0x05#8, 0x07#8, 0x0A#8, 0x0F#8, 0x13#8, 0x1F#8, 0x25#8, 0xFF#8].all opcodeUnassigned = true ∧
      [0x00#8, 0x04#8, 0x08#8, 0x09#8, 0x10#8, 0x12#8, 0x20#8, 0x24#8].all (fun op => !opcodeUnassigned op) = true := by
  decide

/-- R7: 1 ≤ DMEM_AW ≤ 32. -/
theorem test_ill_formed_params :
    Config.Params.wf ⟨0, 0⟩ = false ∧ Config.Params.wf ⟨33, 0⟩ = false ∧ Config.Params.wf ⟨1, 0⟩ = true ∧
      Config.Params.wf ⟨32, 0⟩ = true := by decide

/-- R53: a byte, a half-word and a misaligned word access to the window. -/
theorem test_ill_formed_csr_access :
    Input.wf ⟨16, 0x1000⟩ (.csrRead 0x1008 .byte) = false ∧ Input.wf ⟨16, 0x1000⟩ (.csrWrite 0x1004 .half 0) = false ∧
      Input.wf ⟨16, 0x1000⟩ (.csrRead 0x1006 .word) = false ∧ Input.wf ⟨16, 0x1000⟩ (.csrRead 0xFFE .word) = false ∧
      Input.wf ⟨16, 0x1000⟩ (.csrRead 0x10FC .word) = true ∧ Input.wf ⟨16, 0x1000⟩ (.csrRead 0x1100 .byte) = true := by
  decide

/-- R50: DMEM addresses end at DMEM_SIZE − 1. -/
theorem test_ill_formed_dmem_access :
    Input.wf ⟨16, 0⟩ (.dmemRead 0x10000) = false ∧ Input.wf ⟨16, 0⟩ (.dmemWrite 0x10000 0) = false ∧
      Input.wf ⟨16, 0⟩ (.dmemRead 0xFFFF) = true := by decide

/-- A command has no operand (R70, R71), so no command is ill formed. -/
theorem test_every_command_is_well_formed (i : Instr) : Instr.wf i = true := by cases i <;> rfl

/-! ## Decoding: each word written out bit by bit, RSV [31:8] = 0 and OPCODE [7:0] (R70, R72) -/

theorem test_decode_control : decode 0b00000000000000000000000000000000#32 = .ok .nop := by decide

theorem test_decode_bulk :
    decode 0b00000000000000000000000000000001#32 = .ok .encode ∧
    decode 0b00000000000000000000000000000010#32 = .ok .decode ∧
    decode 0b00000000000000000000000000000011#32 = .ok .decodeAlloc ∧
    decode 0b00000000000000000000000000000100#32 = .ok .validate := by decide

theorem test_decode_tables :
    decode 0b00000000000000000000000000001000#32 = .ok .tblAlpha ∧
    decode 0b00000000000000000000000000001001#32 = .ok .tblInv := by decide

theorem test_decode_encoder :
    decode 0b00000000000000000000000000010000#32 = .ok .encOpen ∧
    decode 0b00000000000000000000000000010001#32 = .ok .encWrite ∧
    decode 0b00000000000000000000000000010010#32 = .ok .encClose := by decide

theorem test_decode_decoder :
    decode 0b00000000000000000000000000100000#32 = .ok .decOpen ∧
    decode 0b00000000000000000000000000100001#32 = .ok .decRead ∧
    decode 0b00000000000000000000000000100010#32 = .ok .decSkip ∧
    decode 0b00000000000000000000000000100011#32 = .ok .decAvail ∧
    decode 0b00000000000000000000000000100100#32 = .ok .decClose := by decide

/-- L2.6: the words that are no command. -/
theorem test_decode_illegal :
    decode 0xFF#32 = .error (.unassignedOpcode 0xFF#8) ∧ decode 0x05#32 = .error (.unassignedOpcode 0x05#8) ∧
    decode 0x13#32 = .error (.unassignedOpcode 0x13#8) ∧ decode 0x101#32 = .error (.reservedBits 0x101#32) ∧
    decode 0x80000000#32 = .error (.reservedBits 0x80000000#32) := by decide

/-- The opcode table's numbering: the word itself. -/
theorem test_decode_table_word :
    decodeTableWord 32 0x22 = some .decSkip ∧ decodeTableWord 32 0x101 = none ∧ decodeTableWord 64 0x100000001 = none := by
  decide

/-- R23: no two registers share an offset, and each offset names its register. -/
theorem test_csr_offsets : ∀ n ∈ allCsrs, csrAt (csrOffset n) = some n := by decide

/-- R23: the offsets of the eight argument registers, from the table. -/
theorem test_argument_offsets :
    rwCsrs.map csrOffset = [0x18, 0x1C, 0x20, 0x24, 0x28, 0x2C, 0x30, 0x34] := by decide

/-! ## Small states -/

/-- Bytes from numbers. -/
def bytes (ns : List Nat) : List Byte := ns.map (BitVec.ofNat 8)

/-- "qszh6BM=" (L2). -/
def qszhPad : List Nat := [0x71, 0x73, 0x7A, 0x68, 0x36, 0x42, 0x4D, 0x3D]

/-- AA CC E1 E8 13 0D (E1). -/
def e1Bytes : List Nat := [0xAA, 0xCC, 0xE1, 0xE8, 0x13, 0x0D]

/-- Reset, with DMEM_AW = 16 as the vectors have it. -/
def base : State := { State.reset with params := ⟨16, 0⟩ }

/-- ARG holds this. -/
def withArg (v : Word) (s : State) : State := { s with args := { s.args with arg := v } }

/-- A source region at 0x100 (L2.3). -/
def region (ns : List Nat) (off cnt : Int) (dst : Nat) (dstLen dstOff : Int) : State :=
  { base with
    dmem := Memory.writeBytes [] 0x100 (bytes ns)
    args :=
      { srcBase := 0x100, srcLen := BitVec.ofNat 32 ns.length, srcOff := BitVec.ofInt 32 off, srcCnt := BitVec.ofInt 32 cnt
        dstBase := BitVec.ofNat 32 dst, dstLen := BitVec.ofInt 32 dstLen, dstOff := BitVec.ofInt 32 dstOff, arg := 0 } }

/-- A source that gives these characters, then EOF. -/
def text (ns : List Nat) : State :=
  { base with source := { base.source with readAnswers := chars (bytes ns) ++ [(0, .eof)] } }

/-- The encoder holds these bytes, and the sink accepts everything. -/
def encHolds (fill : Fin 4) (b0 b1 : Byte) : State :=
  { base with
    enc := ⟨.opened, fill, ⟨b0, b1, 0⟩, .empty⟩
    sink := { base.sink with putAnswers := acks 4, closeAnswers := [(0, .ack)] } }

/-- The decoder is in this mode with an empty buffer. -/
def decIs (m : DecMode) : State := { base with dec := ⟨m, 0, 0, .zero, .empty⟩ }

/-- The decoder holds AA CC E1 and has delivered the first byte (L2.5, sequence D). -/
def decHolds : State := { base with dec := ⟨.active, 1, 3, ⟨0xAA, 0xCC, 0xE1⟩, .empty⟩ }

/-- The encoder has failed (L2.4, sequence B). -/
def encDead : State := { base with enc := ⟨.failed, 0, .zero, ⟨.sinkError, 0xE1, 0⟩⟩ }

/-- The decoder has failed (L2.5, "aQ"). -/
def decDead : State := { base with dec := ⟨.failed, 0, 0, .zero, ⟨.unexpectedEndOfInput, 2, 0⟩⟩ }

/-- The host's next inputs. -/
def withInputs (is : List Input) (s : State) : State := { s with inputs := is }

/-- A bulk command was accepted and takes `n` more steps. -/
def waiting (n : Nat) (broken : Bool) : State :=
  { base with phase := .accepted n ⟨0x100, 6⟩ ⟨0x200, 8⟩ broken, cmdWord := some 0x1#32 }

/-- DEC_READ waits for its first character. -/
def pulling : State :=
  { base with
    phase := .pulling [] .read, cmdWord := some 0x21#32
    source := { base.source with log := [.read] } }

/-- STATUS, RESULT, INFO0 and INFO1 after a command. -/
def shown (r : Result) : Option (Word × Word × Word × Word) :=
  match r with
  | .next t => some (t.statusWord, t.result, t.info0, t.info1)
  | .fault _ => none
  | .refused _ => none

/-- DMEM after a command. -/
def dmemOf (r : Result) (a n : Nat) : List Byte :=
  match r with
  | .next t => Memory.readBytes t.dmem a n
  | .fault _ => []
  | .refused _ => []

/-- ENC_STATE and the sink's requests after a command. -/
def encShown (r : Result) : Option (Word × List SinkReq) :=
  match r with
  | .next t => some (t.enc.stateWord, t.sink.log)
  | .fault _ => none
  | .refused _ => none

/-- DEC_STATE, DEC_BUF and the source's requests after a command. -/
def decShown (r : Result) : Option (Word × Word × List SrcReq) :=
  match r with
  | .next t => some (t.dec.stateWord, t.dec.bufWord, t.source.log)
  | .fault _ => none
  | .refused _ => none

/-- What the host's reads have returned after a step. -/
def logOf (r : Result) : List HostReply :=
  match r with
  | .next t => t.hostLog
  | .fault _ => []
  | .refused _ => []

/-! ## One step each, from 95_test_vectors.md -/

/-- L2.6: NOP reads STATUS 0x0000_0002. -/
theorem test_nop : shown (exec .nop base) = some (0x2#32, 0, 0, 0) := by decide +kernel

/-- L2.6: illegal words, through a CMD write. -/
theorem test_illegal_words :
    shown (step (base.withFetchWord 32 0xFF)) = some (0xD02#32, 0, 0xFF#32, 0) ∧
      shown (step (base.withFetchWord 32 0x101)) = some (0xD02#32, 0, 0x101#32, 0) := by decide +kernel

/-- L2.1: TBL_ALPHA at both ends of the digits and beyond the table. -/
theorem test_tbl_alpha :
    shown (exec .tblAlpha (withArg 42 base)) = some (0x2#32, 0x71#32, 0, 0) ∧
    shown (exec .tblAlpha (withArg 61 base)) = some (0x2#32, 0x39#32, 0, 0) ∧
    shown (exec .tblAlpha (withArg 63 base)) = some (0x2#32, 0x2F#32, 0, 0) ∧
    shown (exec .tblAlpha (withArg 64 base)) = some (0x302#32, 0, 0x40#32, 3) := by decide +kernel

/-- L2.1: TBL_INV, the ends of the ranges, the pad, and no truncation. -/
theorem test_tbl_inv :
    shown (exec .tblInv (withArg 0x7A base)) = some (0x2#32, 51#32, 0, 0) ∧
    shown (exec .tblInv (withArg 0x30 base)) = some (0x2#32, 52#32, 0, 0) ∧
    shown (exec .tblInv (withArg 0x3D base)) = some (0x2#32, 0xFFFFFFFF#32, 0, 0) ∧
    shown (exec .tblInv (withArg 0x141 base)) = some (0x2#32, 0xFFFFFFFF#32, 0, 0) := by decide +kernel

/-- L2.2: GroupDecode of a final group: each zero-bit check, three pads, a pad before data. -/
theorem test_group_decode :
    groupDecode ⟨0x54#8, 0x57#8, 0x45#8, 0x3D#8⟩ true = .ok ⟨0x4D#8, 0x61#8, 0⟩ 2 ∧
    groupDecode ⟨0x61#8, 0x52#8, 0x3D#8, 0x3D#8⟩ true = .err 0x52#8 1 ∧
    groupDecode ⟨0x54#8, 0x57#8, 0x46#8, 0x3D#8⟩ true = .err 0x46#8 2 ∧
    groupDecode ⟨0x61#8, 0x3D#8, 0x3D#8, 0x3D#8⟩ true = .err 0x3D#8 1 ∧
    groupDecode ⟨0x61#8, 0x61#8, 0x3D#8, 0x61#8⟩ true = .err 0x3D#8 2 ∧
    groupDecode ⟨0x54#8, 0x57#8, 0x45#8, 0x3D#8⟩ false = .err 0x3D#8 3 := by decide +kernel

/-- L1 E1, E3: "qszh6BMN" and "qszh6BM=". -/
theorem test_encode_text :
    shown (exec .encode (region e1Bytes 0 6 0x200 0 0)) = some (0x2#32, 8, 0, 0) ∧
    dmemOf (exec .encode (region e1Bytes 0 6 0x200 0 0)) 0x200 8 =
      bytes [0x71, 0x73, 0x7A, 0x68, 0x36, 0x42, 0x4D, 0x4E] ∧
    dmemOf (exec .encode (region e1Bytes 0 5 0x200 0 0)) 0x200 8 = bytes qszhPad := by decide +kernel

/-- L2.3: ENCODE's checks: index, count, the end of DMEM, overlap. -/
theorem test_encode_checks :
    shown (exec .encode (region e1Bytes 7 0 0x200 0 0)) = some (0x302#32, 0, 7, 0) ∧
    shown (exec .encode (region e1Bytes 2 5 0x200 0 0)) = some (0x302#32, 0, 5, 1) ∧
    shown (exec .encode (region e1Bytes 0 6 0xFFF8 0 0)) = some (0x2#32, 8, 0, 0) ∧
    shown (exec .encode (region e1Bytes 0 6 0xFFF9 0 0)) = some (0xB02#32, 0, 0xFFF9#32, 1) ∧
    shown (exec .encode (region e1Bytes 0 6 0x105 0 0)) = some (0xC02#32, 0, 0, 0) ∧
    shown (exec .encode (region e1Bytes 0 6 0x106 0 0)) = some (0x2#32, 8, 0, 0) := by decide +kernel

/-- L2.3: DECODE of "qszh6BM=" at an offset of the destination. -/
theorem test_decode_bytes :
    shown (exec .decode (region qszhPad 0 8 0x200 8 3)) = some (0x2#32, 5, 0, 0) ∧
    dmemOf (exec .decode (region qszhPad 0 8 0x200 8 3)) 0x1FF 9 =
      bytes [0, 0, 0, 0, 0xAA, 0xCC, 0xE1, 0xE8, 0x13] := by decide +kernel

/-- L2.3: DECODE's checks: length before range, capacity, negative count, an invalid character's index. -/
theorem test_decode_checks :
    shown (exec .decode (region qszhPad 99 7 0x200 8 0)) = some (0x402#32, 0, 7, 0) ∧
    shown (exec .decode (region qszhPad 0 (-4) 0x200 8 0)) = some (0x302#32, 0, 0xFFFFFFFC#32, 1) ∧
    shown (exec .decode (region qszhPad 0 8 0x200 8 4)) = some (0x502#32, 0, 5, 4) ∧
    shown (exec .decode (region [0x71, 0x73, 0x7A, 0x68, 0x71, 0x73, 0x3D, 0x68] 0 8 0x200 6 0)) =
      some (0x602#32, 0, 0x3D#32, 6) := by decide +kernel

/-- L2.3: DECODE_ALLOC reads neither DST_LEN nor DST_OFF. -/
theorem test_decode_alloc :
    shown (exec .decodeAlloc (region qszhPad 0 8 0x200 0 99)) = some (0x2#32, 5, 0, 0) ∧
    dmemOf (exec .decodeAlloc (region qszhPad 0 8 0x200 0 99)) 0x200 6 = bytes [0xAA, 0xCC, 0xE1, 0xE8, 0x13, 0] ∧
    shown (exec .decodeAlloc (region qszhPad 0 6 0x200 0 0)) = some (0x402#32, 0, 6, 0) := by decide +kernel

/-- L2.3: VALIDATE, E6, E7 and the rows that raise nothing. -/
theorem test_validate :
    shown (exec .validate (region qszhPad 0 8 0 0 0)) = some (0x2#32, 1, 0, 0) ∧
    shown (exec .validate (region [0x61, 0x2C, 0x61, 0x61] 0 4 0 0 0)) = some (0x2#32, 0, 0, 0) ∧
    shown (exec .validate (region qszhPad 0 0 0 0 0)) = some (0x2#32, 0, 0, 0) ∧
    shown (exec .validate (region qszhPad 4 8 0 0 0)) = some (0x2#32, 0, 0, 0) := by decide +kernel

/-- L2.4: ENC_OPEN discards the pending byte. -/
theorem test_enc_open : encShown (exec .encOpen (encHolds 1 0x4D 0)) = some (0, []) := by decide +kernel

/-- L2.4, sequence A: the second and the third byte of "Man". -/
theorem test_enc_write :
    encShown (exec .encWrite (withArg 0x61 (encHolds 1 0x4D 0))) = some (0x00614D02#32, []) ∧
    shown (exec .encWrite (withArg 0x6E (encHolds 2 0x4D 0x61))) = some (0x2#32, 4, 0, 0) ∧
    encShown (exec .encWrite (withArg 0x6E (encHolds 2 0x4D 0x61))) =
      some (0, [.put 0x54#8, .put 0x57#8, .put 0x46#8, .put 0x75#8]) ∧
    encShown (exec .encWrite (withArg 0x1FF (encHolds 0 0 0))) = some (0xFF01#32, []) := by decide +kernel

/-- L2.4, sequence B: the third SinkPut fails. -/
theorem test_enc_write_sink_error :
    shown (exec .encWrite { withArg 0x6E (encHolds 2 0x4D 0x61) with
      sink := { base.sink with putAnswers := acks 2 ++ [(0, .err 0xE1)] } }) = some (0x802#32, 0, 0xE1#32, 0) ∧
    encShown (exec .encWrite { withArg 0x6E (encHolds 2 0x4D 0x61) with
      sink := { base.sink with putAnswers := acks 2 ++ [(0, .err 0xE1)] } }) =
      some (0x88#32, [.put 0x54#8, .put 0x57#8, .put 0x46#8]) := by decide +kernel

/-- L2.4: ENC_CLOSE flushes one byte as "aQ==", and with nothing pending only closes. -/
theorem test_enc_close :
    shown (exec .encClose (encHolds 1 0x69 0)) = some (0x2#32, 4, 0, 0) ∧
    encShown (exec .encClose (encHolds 1 0x69 0)) =
      some (0x4#32, [.put 0x61#8, .put 0x51#8, .put 0x3D#8, .put 0x3D#8, .close]) ∧
    encShown (exec .encClose (encHolds 0 0 0)) = some (0x4#32, [.close]) := by decide +kernel

/-- L2.5: DEC_OPEN leaves FAILED. -/
theorem test_dec_open : decShown (exec .decOpen decDead) = some (0, 0, []) := by decide +kernel

/-- L2.5, sequence D: the first and the second DEC_READ of "qszh6BM=". -/
theorem test_dec_read :
    shown (exec .decRead (text qszhPad)) = some (0x2#32, 0xAA#32, 0, 0) ∧
    decShown (exec .decRead (text qszhPad)) = some (0xD#32, 0x00E1CCAA#32, [.read, .read, .read, .read]) ∧
    shown (exec .decRead decHolds) = some (0x2#32, 0xCC#32, 0, 0) ∧
    decShown (exec .decRead decHolds) = some (0xE#32, 0x00E1CCAA#32, []) := by decide +kernel

/-- L2.5: "", "!aQ" (read before it is validated) and "aQ=a". -/
theorem test_dec_read_ends :
    shown (exec .decRead (text [])) = some (0x102#32, 0xFFFFFFFF#32, 0, 0) ∧
    shown (exec .decRead (text [0x21, 0x61, 0x51])) = some (0x702#32, 0, 3, 0) ∧
    shown (exec .decRead (text [0x61, 0x51, 0x3D, 0x61])) = some (0x602#32, 0, 0x3D#32, 2) ∧
    decShown (exec .decRead (text [0x61, 0x51, 0x3D, 0x61])) = some (0x630#32, 0, [.read, .read, .read, .read]) := by
  decide +kernel

/-- L2.5: DEC_SKIP 4 of "qszh6BM=": S(4), then four reads. -/
theorem test_dec_skip :
    shown (exec .decSkip { withArg 4 (text [0x36, 0x42, 0x4D, 0x3D]) with
      source := { (text [0x36, 0x42, 0x4D, 0x3D]).source with skipAnswers := [(0, .skipped 4)] } }) =
      some (0x2#32, 4, 0, 0) ∧
    decShown (exec .decSkip { withArg 4 (text [0x36, 0x42, 0x4D, 0x3D]) with
      source := { (text [0x36, 0x42, 0x4D, 0x3D]).source with skipAnswers := [(0, .skipped 4)] } }) =
      some (0x9#32, 0x000013E8#32, [.skip 4, .read, .read, .read, .read]) := by decide +kernel

/-- L2.5: DEC_SKIP 6 of "qszh6B", DEC_SKIP 10 of "qszh", DEC_SKIP 2 of "aQ==aQ==TWFu" and DEC_SKIP −1. -/
theorem test_dec_skip_corners :
    shown (exec .decSkip { withArg 6 base with source := { base.source with skipAnswers := [(0, .skipped 6)] } }) =
      some (0x702#32, 0, 2, 0) ∧
    shown (exec .decSkip { withArg 10 base with source := { base.source with skipAnswers := [(0, .skipped 4)] } }) =
      some (0x2#32, 3, 0, 0) ∧
    decShown (exec .decSkip (withArg 2 (text [0x61, 0x51, 0x3D, 0x3D, 0x61, 0x51, 0x3D, 0x3D, 0x54, 0x57, 0x46, 0x75]))) =
      some (0x5#32, 0x69#32, List.replicate 8 .read) ∧
    shown (exec .decSkip (withArg 0xFFFFFFFF base)) = some (0x202#32, 0, 0, 0) := by decide +kernel

/-- L2.5: DEC_AVAIL with COUNT(8) and nothing buffered, and with COUNT(7) and two bytes buffered. -/
theorem test_dec_avail :
    shown (exec .decAvail { base with source := { base.source with availAnswers := [(0, .count 8)] } }) =
      some (0x2#32, 6, 0, 0) ∧
    shown (exec .decAvail { decHolds with source := { base.source with availAnswers := [(0, .count 7)] } }) =
      some (0x2#32, 5, 0, 0) := by decide +kernel

/-- L2.5: DEC_CLOSE: DEC_STATE 0x20 after one close request. -/
theorem test_dec_close :
    decShown (exec .decClose { decIs .eoi with source := { base.source with closeAnswers := [(0, .ack)] } }) =
      some (0x20#32, 0, [.close]) ∧
    shown (exec .decClose decDead) = some (0x702#32, 0, 2, 0) := by decide +kernel

/-! ## Steps: acceptance, reads, overrun -/

/-- From reset, the step after a CMD write of ENCODE with SRC_CNT = 0 completes with OK and RESULT 0 (E4). -/
theorem test_step_from_reset : shown (step (State.reset.withFetchWord 32 0x1)) = some (0x2#32, 0, 0, 0) := by
  decide +kernel

/-- L2.6: at reset ID reads 0x4236_3401 and STATUS reads 0. -/
theorem test_reads_at_reset :
    logOf (step (withInputs [.csrRead 0 .word] State.reset)) = [.csr 0 0x42363401#32] ∧
      logOf (step (withInputs [.csrRead 8 .word] State.reset)) = [.csr 8 0] := by decide +kernel

/-- L2.6, overrun: ARG written while DEC_READ waits: the write is ignored and OVR is set. -/
theorem test_overrun :
    (match step (withInputs [.csrWrite 0x34 .word 5] pulling) with
      | .next t => t.ovr && t.busy && t.args.arg == 0
      | .fault _ => false
      | .refused _ => false) = true := by decide +kernel

/-- What OVR and ARG hold, and whether the engine is BUSY, after a step. -/
def busyShown (r : Result) : Option (Bool × Bool × Word) :=
  match r with
  | .next t => some (t.busy, t.ovr, t.args.arg)
  | .fault _ => none
  | .refused _ => none

/-- R285, R286: an illegal word that takes two steps is BUSY after its CMD write, and an argument write then is
ignored and sets OVR. -/
theorem test_illegal_word_takes_time :
    busyShown (step (withInputs [.csrWrite 0x04 .word 0xFF] { base with latency := [2] })) = some (true, false, 0) ∧
    busyShown (step (withInputs [.csrWrite 0x34 .word 5]
      { base with phase := .accepted 2 ⟨0, 0⟩ ⟨0, 0⟩ false, cmdWord := some 0xFF })) = some (true, true, 0) := by
  decide +kernel

/-- P2: the script's accesses are the ones the vector lists. -/
theorem test_script_inputs :
    ScriptLine.inputs ⟨16, 0⟩ (.b64write 0x4D) = [.csrWrite 0x34 .word 0x4D, .csrWrite 0x04 .word 0x11, .wait] ∧
    ScriptLine.inputs ⟨16, 0⟩ (.b64skip (-1)) = [.csrWrite 0x34 .word 0xFFFFFFFF, .csrWrite 0x04 .word 0x22, .wait] ∧
    ScriptLine.inputs ⟨16, 0⟩ (.b64dst 0x300 5 0) =
      [.csrWrite 0x28 .word 0x300, .csrWrite 0x2C .word 5, .csrWrite 0x30 .word 0] := by decide +kernel

/-! ## Witnesses: for each statement, concrete states and operands that meet the hypotheses of each of its clauses -/

/-- "aQ==". -/
def gAQ : TextGroup := ⟨0x61#8, 0x51#8, 0x3D#8, 0x3D#8⟩

/-- "6BM=". -/
def g6BM : TextGroup := ⟨0x36#8, 0x42#8, 0x4D#8, 0x3D#8⟩

/-- "TWFu". -/
def gTWFu : TextGroup := ⟨0x54#8, 0x57#8, 0x46#8, 0x75#8⟩

/-- "aQ=a". -/
def gAQA : TextGroup := ⟨0x61#8, 0x51#8, 0x3D#8, 0x61#8⟩

/-- "aR==". -/
def gAR : TextGroup := ⟨0x61#8, 0x52#8, 0x3D#8, 0x3D#8⟩

/-- The host writes this register next, with reference parameters of DMEM_AW = 16. -/
def hostWrites (n : CsrName) (v : Word) : Input := .csrWrite (csrOffset n) .word v

/-- The latencies of the commands to come. -/
def slow (ls : List Nat) : State := { base with latency := ls }

/-- The CSR window stands at 0x1000. -/
def moved : State := { base with params := ⟨16, 0x1000⟩ }

/-- The encoder is closed. -/
def encClosed : State := { base with enc := ⟨.closed, 0, .zero, .empty⟩ }

/-- A source that answers SrcRead so. -/
def answers (q : List (Nat × ReadAnswer)) : State := { base with source := { base.source with readAnswers := q } }

/-- The host reads this register next. -/
def hostReads (n : CsrName) : Input := .csrRead (csrOffset n) .word

theorem witness_DecodeOfEncodeIsTheCommand : Instr.wf .nop = true ∧ Instr.wf .decClose = true := by decide

theorem witness_StepRunsTheDecodedCommand :
    (base.phase = .idle ∧ writes (withInputs [hostWrites .cmd 0x24] base) .cmd 0x24 [] ∧ decode 0x24 = .ok .decClose ∧
      base.latency = []) ∧
    writes (withInputs [hostWrites .cmd 0x0] (slow [0, 7])) .cmd 0x0 [] ∧ decode 0x0 = .ok .nop ∧
      (slow [0, 7]).latency = 0 :: [7] := by
  unfold writes; decide +kernel

/-- An illegal word was accepted and takes `n` more steps. -/
def illegalWaits (n : Nat) : State := { base with phase := .accepted n ⟨0, 0⟩ ⟨0, 0⟩ false, cmdWord := some 0x100 }

theorem witness_IllegalWordCompletesWithIllegalCommand :
    (base.phase = .idle ∧ writes (withInputs [hostWrites .cmd 0x25] base) .cmd 0x25 [] ∧ (∃ e, decode 0x25 = .error e) ∧
      base.latency = []) ∧
    (writes (withInputs [hostWrites .cmd 0x100] (slow [0, 7])) .cmd 0x100 [] ∧ (∃ e, decode 0x100 = .error e) ∧
      (slow [0, 7]).latency = 0 :: [7]) ∧
    ((illegalWaits 1).phase = .accepted 1 ⟨0, 0⟩ ⟨0, 0⟩ false ∧ (illegalWaits 1).cmdWord = some 0x100 ∧
      (illegalWaits 1).inputs = [] ∧ CsrName.arg ∈ rwCsrs ∧
      writes (withInputs [hostWrites .arg 5] (illegalWaits 1)) .arg 5 [] ∧
      writes (withInputs [hostWrites .cmd 0] (illegalWaits 1)) .cmd 0 []) := by
  unfold writes
  exact ⟨⟨by decide, by decide, ⟨_, rfl⟩, by decide⟩, ⟨by decide, ⟨_, rfl⟩, by decide⟩, by decide +kernel⟩

theorem witness_LatencyKeepsTheCommandAccepted :
    (writes (withInputs [hostWrites .cmd 0x1] (slow [1])) .cmd 0x1 [] ∧ decode 0x1 = .ok .encode ∧
      (slow [1]).latency = (0 + 1) :: []) ∧
    (writes (withInputs [hostWrites .cmd 0x100] (slow [1])) .cmd 0x100 [] ∧
      decode 0x100 = .error (.reservedBits 0x100)) ∧
    ((waiting 2 false).phase = .accepted (0 + 2) ⟨0x100, 6⟩ ⟨0x200, 8⟩ false ∧ (waiting 2 false).inputs = []) ∧
    ((waiting 1 false).phase = .accepted 1 ⟨0x100, 6⟩ ⟨0x200, 8⟩ false ∧ (waiting 1 false).inputs = [] ∧
      (waiting 1 false).cmdWord = some 0x1 ∧ decode 0x1 = .ok .encode) := by
  unfold writes; decide +kernel

theorem witness_BusyWritesAreIgnoredAndSetOvr :
    pulling.phase ≠ .idle ∧ writes (withInputs [hostWrites .cmd 0] pulling) .cmd 0 [] ∧
      writes (withInputs [hostWrites .arg 5] pulling) .arg 5 [] ∧ CsrName.arg ∈ rwCsrs ∧
      writes (withInputs [hostWrites .decBuf 5] pulling) .decBuf 5 [] ∧ CsrName.decBuf ∉ rwCsrs := by
  unfold writes; decide +kernel

theorem witness_IdleRegisterWritesStore :
    (base.phase = .idle ∧ CsrName.srcBase ∈ rwCsrs ∧
      writes (withInputs [hostWrites .srcBase 0xFFFFFFFF] base) .srcBase 0xFFFFFFFF []) ∧
    (CsrName.id ∉ rwCsrs ∧ CsrName.id ≠ .cmd ∧ writes (withInputs [hostWrites .id 1] base) .id 1 []) ∧
    (CsrName.arg ∈ rwCsrs ∧ holds (withArg 7 base).args .arg 7 ∧
      reads (withInputs [hostReads .arg] (withArg 7 base)) .arg []) := by
  unfold writes reads holds; decide +kernel

theorem witness_IdleReadsShowTheRegisters :
    base.phase = .idle ∧
      ∀ n ∈ [CsrName.id, .cmd, .status, .result, .info0, .info1, .encState, .decState, .decBuf],
        reads (withInputs [hostReads n] base) n [] := by
  unfold reads; decide +kernel

theorem witness_BusyReadsAreExactOrFree :
    pulling.phase ≠ .idle ∧ pulling.done = false ∧
    (reads (withInputs [hostReads .id] pulling) .id [] ∧ reads (withInputs [hostReads .cmd] pulling) .cmd [] ∧
      CsrName.srcBase ∈ rwCsrs ∧ holds pulling.args .srcBase 0 ∧ CsrName.arg ∈ rwCsrs ∧ holds pulling.args .arg 0 ∧
      reads (withInputs [hostReads .arg] pulling) .arg []) ∧
    reads (withInputs [hostReads .status] pulling) .status [] ∧
    ∀ n ∈ [CsrName.result, .info0, .info1, .encState, .decState, .decBuf], reads (withInputs [hostReads n] pulling) n [] := by
  unfold reads holds; decide +kernel

theorem witness_ReservedOffsetsReadZeroIgnoreWrites :
    (0x44 % 4 = 0 ∧ (withInputs [.csrRead (0 + 0x44) .word] base).inputs = [.csrRead (base.params.csrBase + 0x44) .word]) ∧
    (0xFC % 4 = 0 ∧
      (withInputs [.csrWrite (0 + 0xFC) .word 1] pulling).inputs = [.csrWrite (base.params.csrBase + 0xFC) .word 1]) := by
  decide +kernel

theorem witness_OtherCsrAccessesAreRefused :
    (moved.params.csrBase < 0xFFD + AccessWidth.word.bytes ∧ 0xFFD < moved.params.csrBase + 256 ∧
      0xFFD < moved.params.csrBase ∧ (withInputs [.csrRead 0xFFD .word] moved).inputs = [.csrRead 0xFFD .word]) ∧
    (base.params.csrBase < 0xFF + AccessWidth.byte.bytes ∧ 0xFF < base.params.csrBase + 256 ∧ AccessWidth.byte ≠ .word) ∧
    (base.params.csrBase < 0x2 + AccessWidth.word.bytes ∧ 0x2 < base.params.csrBase + 256 ∧
      (0x2 - base.params.csrBase) % 4 ≠ 0 ∧ (withInputs [.csrWrite 0x2 .word 9] base).inputs = [.csrWrite 0x2 .word 9]) := by
  decide +kernel

theorem witness_HostDmemAccesses :
    (base.phase = .idle ∧ Memory.wf base.dmem = true ∧ 0xFFFF < 2 ^ base.params.dmemAw ∧
      (withInputs [.dmemWrite 0xFFFF 1] base).inputs = [.dmemWrite 0xFFFF 1]) ∧
    (0 < 2 ^ base.params.dmemAw ∧ (withInputs [.dmemRead 0] base).inputs = [.dmemRead 0]) ∧
    (2 ^ base.params.dmemAw ≤ 0x10000 ∧ (withInputs [.dmemWrite 0x10000 1] base).inputs = [.dmemWrite 0x10000 1]) ∧
    (2 ^ base.params.dmemAw ≤ 0x10000 ∧ (withInputs [.dmemRead 0x10000] base).inputs = [.dmemRead 0x10000]) := by
  decide +kernel

theorem witness_WaitPollsStatusUntilIdle :
    ((withInputs [.wait] base).inputs = [.wait] ∧ (withInputs [.wait] base).phase = .idle) ∧
    ((withInputs [.wait] pulling).inputs = [.wait] ∧ (withInputs [.wait] pulling).phase ≠ .idle) := by decide +kernel

theorem witness_ResetAbandonsARunningCommand :
    (Memory.wf (waiting 3 false).dmem = true ∧ (withInputs [.reset] (waiting 3 false)).inputs = [.reset] ∧
      (waiting 3 false).phase = .accepted 3 ⟨0x100, 6⟩ ⟨0x200, 8⟩ false) ∧
    (Memory.wf pulling.dmem = true ∧ (withInputs [.reset] pulling).inputs = [.reset]) := by decide +kernel

/-- The engine waits in this phase, and no answer is to come. -/
def hangs (p : Phase) (w : Word) : State := { base with phase := p, cmdWord := some w }

theorem witness_UnansweredRequestHangs :
    (Unanswered (hangs (.putting 0x41 [] .write) 0x11) ∧ Unanswered (hangs (.closingSink 4) 0x12) ∧
      Unanswered (hangs (.pulling [] .read) 0x21) ∧ Unanswered (hangs (.skipping 4 0 3) 0x22) ∧
      Unanswered (hangs .availing 0x23) ∧ Unanswered (hangs .closingSource 0x24)) ∧
    (Unanswered (withInputs [hostReads .status] pulling) ∧ hostReads .status ≠ .reset ∧
      ∃ t, step (withInputs [hostReads .status] pulling) = .next t) := by
  exact ⟨⟨rfl, rfl, rfl, rfl, rfl, rfl⟩, rfl, by decide +kernel, _, rfl⟩

theorem witness_BrokenHostDutyLeavesFreeValues :
    ((waiting 2 false).phase = .accepted (0 + 2) ⟨0x100, 6⟩ ⟨0x200, 8⟩ false ∧ 0x105 < 2 ^ base.params.dmemAw ∧
      (withInputs [.dmemWrite 0x105 0] (waiting 2 false)).inputs = [.dmemWrite 0x105 0] ∧
      (withInputs [.dmemRead 0x207] (waiting 2 false)).inputs = [.dmemRead 0x207] ∧
      (⟨0x200, 8⟩ : Region).contains 0x207 = true ∧ (⟨0x200, 8⟩ : Region).contains 0x208 = false) ∧
    (Memory.wf (waiting 1 true).dmem = true ∧ (waiting 1 true).phase = .accepted 1 ⟨0x100, 6⟩ ⟨0x200, 8⟩ true ∧
      (waiting 1 true).inputs = []) ∧
    (Memory.wf (waiting 1 false).dmem = true ∧ (waiting 1 false).phase = .accepted 1 ⟨0x100, 6⟩ ⟨0x200, 8⟩ false ∧
      (withInputs [.dmemWrite 0x105 0] (waiting 1 false)).inputs = [.dmemWrite 0x105 0] ∧
      (⟨0x100, 6⟩ : Region).contains 0x105 = true ∧ (⟨0x100, 6⟩ : Region).contains 0x106 = false ∧
      (⟨0x200, 8⟩ : Region).contains 0x1FF = false ∧ (waiting 1 false).cmdWord = some 0x1 ∧ decode 0x1 = .ok .encode) := by
  decide +kernel

/-- ENCODE of six bytes, the last four of which DMEM does not have, to a text whose last four DMEM does not have. -/
def caseGuardedRegions1 : State :=
  { base with args := { base.args with srcBase := 0xFFFE, srcLen := 6, srcCnt := 6, dstBase := 0xFFFC } }

/-- DECODE of "qszh6BM=" to the last bytes of DMEM. -/
def caseGuardedRegions2 : State := region qszhPad 0 8 0xFFFB 8 0

/-- DECODE of a text that DMEM does not have. -/
def caseGuardedRegions3 : State :=
  { base with args := { base.args with srcBase := 0xFFFE, srcLen := 8, srcCnt := 8 } }

/-- R62: of a region that reaches beyond DMEM its bytes in DMEM are guarded. -/
theorem test_guarded_bytes_end_with_dmem :
    [0xFFFD, 0xFFFE, 0xFFFF, 0x10000].map (guardedSrc .encode caseGuardedRegions1).contains = [false, true, true, false] ∧
    [0xFFFB, 0xFFFC, 0xFFFF, 0x10000].map (guardedDst .encode caseGuardedRegions1).contains = [false, true, true, false] := by
  decide +kernel

theorem witness_GuardedRegionsAreThoseOfTheCommand :
    (SrcInRange caseGuardedRegions1 ∧ srcAt caseGuardedRegions1 ≤ 0xFFFF ∧
      0xFFFF < srcAt caseGuardedRegions1 + srcN caseGuardedRegions1 ∧ 0xFFFF < 2 ^ base.params.dmemAw) ∧
    (SrcInRange caseGuardedRegions2 ∧ caseGuardedRegions2.srcCnt % 4 = 0 ∧
      InDmem caseGuardedRegions2 (srcAt caseGuardedRegions2) (srcN caseGuardedRegions2) ∧ 0 ≤ caseGuardedRegions2.dstOff ∧
      caseGuardedRegions2.dstOff ≤ caseGuardedRegions2.dstLen ∧
      0xFFFF < dstAt caseGuardedRegions2 + decodedN caseGuardedRegions2) ∧
    ¬SrcInRange (region e1Bytes 7 0 0x200 0 0) ∧ (region qszhPad 0 7 0x200 8 0).srcCnt % 4 ≠ 0 ∧
    ¬InDmem caseGuardedRegions3 (srcAt caseGuardedRegions3) (srcN caseGuardedRegions3) ∧
    (region qszhPad 0 8 0x200 8 (-1)).dstOff < 0 ∧
    (region qszhPad 0 8 0x200 8 9).dstLen < (region qszhPad 0 8 0x200 8 9).dstOff ∧
    Instr.decSkip ∉ [Instr.encode, .decode, .decodeAlloc, .validate] := by
  unfold SrcInRange InDmem; decide +kernel

theorem witness_TblAlphaReadsTheAlphabet :
    alphabet[(withArg 0 base).args.arg.toNat]? = some 0x41 ∧ alphabet[(withArg 63 base).args.arg.toNat]? = some 0x2F ∧
      (withArg 63 base).args.arg.toNat < 64 ∧ 63 < (withArg 64 base).args.arg.toNat ∧
      63 < (withArg 0xFFFFFFFF base).args.arg.toNat := by decide +kernel

theorem witness_TblInvInvertsTheAlphabet :
    alphabet[0]? = some (withArg 0x41 base).args.arg.toNat ∧ alphabet[63]? = some (withArg 0x2F base).args.arg.toNat ∧
      (withArg 0x7B base).args.arg.toNat ∉ alphabet ∧ (withArg 0x141 base).args.arg.toNat ∉ alphabet ∧
      (withArg 63 base).args.arg.toNat ≤ 63 := by decide +kernel

theorem witness_TableLaws :
    (∀ i : Sextet, alpha i ≠ 0x3D#8) ∧ isAlpha 0x7A#8 = true ∧ (inv5 0x7A#8).toNat = 51 := by decide +kernel

theorem witness_PackingCutsTheGroup :
    0xAACCE1 = (0xAA#8).toNat * 2 ^ 16 + (0xCC#8).toNat * 2 ^ 8 + (0xE1#8).toNat := by decide

theorem witness_GroupRoundTrip :
    groupDecode gTWFu true = .ok ⟨0x4D#8, 0x61#8, 0x6E#8⟩ 3 ∧
    groupDecode ⟨0x54#8, 0x57#8, 0x45#8, 0x3D#8⟩ true = .ok ⟨0x4D#8, 0x61#8, 0⟩ 2 ∧
    groupDecode ⟨0x54#8, 0x51#8, 0x3D#8, 0x3D#8⟩ true = .ok ⟨0x4D#8, 0, 0⟩ 1 := by decide +kernel

/-- "TR==", "TWF=", "a===" and "AAA!" (L2.2). -/
theorem witness_GroupDecodeReportsTheFirstOffender :
    (isAlpha 0x3D#8 = false ∧ 1 < 4 - 2 ∧ isAlpha 0x61#8 = true) ∧ (isAlpha 0x21#8 = false ∧ 3 < 4 - 0 ∧ isAlpha 0x41#8 = true) ∧
    (isAlpha 0x54#8 = true ∧ isAlpha 0x52#8 = true ∧ (inv5 0x52#8).toNat % 16 ≠ 0) ∧
    (isAlpha 0x57#8 = true ∧ isAlpha 0x46#8 = true ∧ (inv5 0x46#8).toNat % 4 ≠ 0) ∧
    ((inv5 0x51#8).toNat % 16 = 0 ∧ isAlpha 0x51#8 = true ∧ (inv5 0x45#8).toNat % 4 = 0 ∧ isAlpha 0x45#8 = true) := by
  decide +kernel

/-- A case of the witness below. -/
def caseEncodeFollowsItsRule1 : State :=
  { base with args := { base.args with srcBase := 0xFFFE, srcLen := 6, srcCnt := 3 } }

/-- A case of the witness below. -/
def caseEncodeFollowsItsRule2 : State :=
  region e1Bytes 0 6 0xFFF9 0 0

/-- A case of the witness below. -/
def caseEncodeFollowsItsRule3 : State :=
  region e1Bytes 0 6 0x105 0 0

/-- A case of the witness below. -/
def caseEncodeFollowsItsRule4 : State :=
  region e1Bytes 0 6 0x106 0 0

theorem witness_EncodeFollowsItsRule :
    (Memory.wf (region e1Bytes (-1) 0 0x200 0 0).dmem = true ∧ (region e1Bytes (-1) 0 0x200 0 0).srcOff < 0 ∧
      (region e1Bytes 7 0 0x200 0 0).srcLen < (region e1Bytes 7 0 0x200 0 0).srcOff) ∧
    ((region e1Bytes 6 1 0x200 0 0).srcOff ≤ (region e1Bytes 6 1 0x200 0 0).srcLen ∧
      ((region e1Bytes 6 1 0x200 0 0).srcLen : Int) < (region e1Bytes 6 1 0x200 0 0).srcOff + (region e1Bytes 6 1 0x200 0 0).srcCnt ∧
      (region e1Bytes 0 (-1) 0x200 0 0).srcCnt < 0) ∧
    (SrcInRange caseEncodeFollowsItsRule1 ∧ ¬InDmem caseEncodeFollowsItsRule1 (srcAt caseEncodeFollowsItsRule1) (srcN caseEncodeFollowsItsRule1)) ∧
    (SrcInRange caseEncodeFollowsItsRule2 ∧ InDmem caseEncodeFollowsItsRule2 (srcAt caseEncodeFollowsItsRule2) (srcN caseEncodeFollowsItsRule2) ∧ ¬InDmem caseEncodeFollowsItsRule2 caseEncodeFollowsItsRule2.dstBase 8) ∧
    (SrcInRange caseEncodeFollowsItsRule3 ∧ InDmem caseEncodeFollowsItsRule3 (srcAt caseEncodeFollowsItsRule3) (srcN caseEncodeFollowsItsRule3) ∧ InDmem caseEncodeFollowsItsRule3 caseEncodeFollowsItsRule3.dstBase 8 ∧ ¬Apart (srcAt caseEncodeFollowsItsRule3) (srcN caseEncodeFollowsItsRule3) caseEncodeFollowsItsRule3.dstBase 8) ∧
    (SrcInRange caseEncodeFollowsItsRule4 ∧ InDmem caseEncodeFollowsItsRule4 (srcAt caseEncodeFollowsItsRule4) (srcN caseEncodeFollowsItsRule4) ∧ InDmem caseEncodeFollowsItsRule4 caseEncodeFollowsItsRule4.dstBase 8 ∧ Apart (srcAt caseEncodeFollowsItsRule4) (srcN caseEncodeFollowsItsRule4) caseEncodeFollowsItsRule4.dstBase 8 ∧
        8 = (srcN caseEncodeFollowsItsRule4 + 2) / 3 * 4) := by
  unfold SrcInRange InDmem Apart; decide +kernel

/-- A case of the witness below. -/
def caseDecodeFollowsItsRule1 : State :=
  region qszhPad 0 (-4) 0x200 8 0

/-- A case of the witness below. -/
def caseDecodeFollowsItsRule2 : State :=
  region qszhPad 0 8 0x200 8 9

/-- A case of the witness below. -/
def caseDecodeFollowsItsRule3 : State :=
  { base with args := { base.args with srcBase := 0xFFFC, srcLen := 8, srcCnt := 8 } }

/-- A case of the witness below. -/
def caseDecodeFollowsItsRule4 : State :=
  region qszhPad 0 8 0x200 8 4

/-- A case of the witness below. -/
def caseDecodeFollowsItsRule5 : State :=
  region qszhPad 0 8 0xFFFC 5 0

/-- A case of the witness below. -/
def caseDecodeFollowsItsRule6 : State :=
  region qszhPad 0 8 0x104 8 0

/-- A case of the witness below. -/
def caseDecodeFollowsItsRule7 : State :=
  region qszhPad 0 8 0x200 5 0

/-- A case of the witness below. -/
def caseDecodeFollowsItsRule8 : State :=
  region [0x71, 0x73, 0x7A, 0x3D] 0 4 0x200 3 0

theorem witness_DecodeFollowsItsRule :
    (region qszhPad 99 7 0x200 8 0).srcCnt % 4 ≠ 0 ∧
    ((region qszhPad (-1) 4 0x200 8 0).srcCnt % 4 = 0 ∧ (region qszhPad (-1) 4 0x200 8 0).srcOff < 0) ∧
    (caseDecodeFollowsItsRule1.srcCnt % 4 = 0 ∧ 0 ≤ caseDecodeFollowsItsRule1.srcOff ∧ caseDecodeFollowsItsRule1.srcOff ≤ caseDecodeFollowsItsRule1.srcLen ∧ caseDecodeFollowsItsRule1.srcCnt < 0) ∧
    (caseDecodeFollowsItsRule2.srcCnt % 4 = 0 ∧ SrcInRange caseDecodeFollowsItsRule2 ∧ caseDecodeFollowsItsRule2.dstLen < caseDecodeFollowsItsRule2.dstOff) ∧
    (caseDecodeFollowsItsRule3.srcCnt % 4 = 0 ∧ SrcInRange caseDecodeFollowsItsRule3 ∧ 0 ≤ caseDecodeFollowsItsRule3.dstOff ∧ caseDecodeFollowsItsRule3.dstOff ≤ caseDecodeFollowsItsRule3.dstLen ∧ ¬InDmem caseDecodeFollowsItsRule3 (srcAt caseDecodeFollowsItsRule3) (srcN caseDecodeFollowsItsRule3)) ∧
    (SrcInRange caseDecodeFollowsItsRule4 ∧ caseDecodeFollowsItsRule4.dstOff ≤ caseDecodeFollowsItsRule4.dstLen ∧ InDmem caseDecodeFollowsItsRule4 (srcAt caseDecodeFollowsItsRule4) (srcN caseDecodeFollowsItsRule4) ∧ 4 < decodedN caseDecodeFollowsItsRule4) ∧
    (InDmem caseDecodeFollowsItsRule5 (srcAt caseDecodeFollowsItsRule5) (srcN caseDecodeFollowsItsRule5) ∧ decodedN caseDecodeFollowsItsRule5 ≤ 5 ∧ ¬InDmem caseDecodeFollowsItsRule5 (dstAt caseDecodeFollowsItsRule5) (decodedN caseDecodeFollowsItsRule5)) ∧
    (InDmem caseDecodeFollowsItsRule6 (dstAt caseDecodeFollowsItsRule6) (decodedN caseDecodeFollowsItsRule6) ∧ ¬Apart (srcAt caseDecodeFollowsItsRule6) (srcN caseDecodeFollowsItsRule6) (dstAt caseDecodeFollowsItsRule6) (decodedN caseDecodeFollowsItsRule6)) ∧
    (Memory.wf caseDecodeFollowsItsRule7.dmem = true ∧ SrcInRange caseDecodeFollowsItsRule7 ∧ 5 = decodedN caseDecodeFollowsItsRule7 ∧ 5 = ((caseDecodeFollowsItsRule7.dstLen : Int) - caseDecodeFollowsItsRule7.dstOff).toNat ∧
        InDmem caseDecodeFollowsItsRule7 (dstAt caseDecodeFollowsItsRule7) 5 ∧ Apart (srcAt caseDecodeFollowsItsRule7) (srcN caseDecodeFollowsItsRule7) (dstAt caseDecodeFollowsItsRule7) 5 ∧
        decodeText 0 (srcData caseDecodeFollowsItsRule7) = .ok (bytes [0xAA, 0xCC, 0xE1, 0xE8, 0x13])) ∧
    (SrcInRange caseDecodeFollowsItsRule8 ∧ InDmem caseDecodeFollowsItsRule8 (dstAt caseDecodeFollowsItsRule8) 2 ∧ Apart (srcAt caseDecodeFollowsItsRule8) (srcN caseDecodeFollowsItsRule8) (dstAt caseDecodeFollowsItsRule8) 2 ∧ 2 = decodedN caseDecodeFollowsItsRule8 ∧
        decodeText 0 (srcData caseDecodeFollowsItsRule8) = .err 0x7A#8 2) := by
  unfold SrcInRange InDmem Apart
  refine ⟨?_, ?_, ?_, ?_, ?_, ?_, ?_, ?_, ?_, ?_⟩ <;> decide +kernel

/-- A case of the witness below. -/
def caseDecodeAllocFollowsItsRule1 : State :=
  region qszhPad 4 8 0x200 0 0

/-- A case of the witness below. -/
def caseDecodeAllocFollowsItsRule2 : State :=
  { base with args := { base.args with srcBase := 0xFFFC, srcLen := 8, srcCnt := 8 } }

/-- A case of the witness below. -/
def caseDecodeAllocFollowsItsRule3 : State :=
  region qszhPad 0 8 0xFFFC 0 0

/-- A case of the witness below. -/
def caseDecodeAllocFollowsItsRule4 : State :=
  region qszhPad 0 8 0x107 0 0

/-- A case of the witness below. -/
def caseDecodeAllocFollowsItsRule5 : State :=
  region qszhPad 0 8 0x108 0 99

/-- A case of the witness below. -/
def caseDecodeAllocFollowsItsRule6 : State :=
  region [0x61, 0x52, 0x3D, 0x3D] 0 4 0x200 0 0

theorem witness_DecodeAllocFollowsItsRule :
    (region qszhPad 0 6 0x200 0 0).srcCnt % 4 ≠ 0 ∧
    ((region qszhPad 9 4 0x200 0 0).srcCnt % 4 = 0 ∧
      (region qszhPad 9 4 0x200 0 0).srcLen < (region qszhPad 9 4 0x200 0 0).srcOff) ∧
    (caseDecodeAllocFollowsItsRule1.srcCnt % 4 = 0 ∧ 0 ≤ caseDecodeAllocFollowsItsRule1.srcOff ∧ caseDecodeAllocFollowsItsRule1.srcOff ≤ caseDecodeAllocFollowsItsRule1.srcLen ∧ caseDecodeAllocFollowsItsRule1.srcLen < caseDecodeAllocFollowsItsRule1.srcOff + caseDecodeAllocFollowsItsRule1.srcCnt) ∧
    (SrcInRange caseDecodeAllocFollowsItsRule2 ∧ ¬InDmem caseDecodeAllocFollowsItsRule2 (srcAt caseDecodeAllocFollowsItsRule2) (srcN caseDecodeAllocFollowsItsRule2)) ∧
    (SrcInRange caseDecodeAllocFollowsItsRule3 ∧ InDmem caseDecodeAllocFollowsItsRule3 (srcAt caseDecodeAllocFollowsItsRule3) (srcN caseDecodeAllocFollowsItsRule3) ∧ ¬InDmem caseDecodeAllocFollowsItsRule3 caseDecodeAllocFollowsItsRule3.dstBase (decodedN caseDecodeAllocFollowsItsRule3)) ∧
    (InDmem caseDecodeAllocFollowsItsRule4 caseDecodeAllocFollowsItsRule4.dstBase (decodedN caseDecodeAllocFollowsItsRule4) ∧ ¬Apart (srcAt caseDecodeAllocFollowsItsRule4) (srcN caseDecodeAllocFollowsItsRule4) caseDecodeAllocFollowsItsRule4.dstBase (decodedN caseDecodeAllocFollowsItsRule4)) ∧
    (Memory.wf caseDecodeAllocFollowsItsRule5.dmem = true ∧ SrcInRange caseDecodeAllocFollowsItsRule5 ∧ InDmem caseDecodeAllocFollowsItsRule5 (srcAt caseDecodeAllocFollowsItsRule5) (srcN caseDecodeAllocFollowsItsRule5) ∧ InDmem caseDecodeAllocFollowsItsRule5 caseDecodeAllocFollowsItsRule5.dstBase (decodedN caseDecodeAllocFollowsItsRule5) ∧
        Apart (srcAt caseDecodeAllocFollowsItsRule5) (srcN caseDecodeAllocFollowsItsRule5) caseDecodeAllocFollowsItsRule5.dstBase (decodedN caseDecodeAllocFollowsItsRule5) ∧
        decodeText 0 (srcData caseDecodeAllocFollowsItsRule5) = .ok (bytes [0xAA, 0xCC, 0xE1, 0xE8, 0x13])) ∧
    (InDmem caseDecodeAllocFollowsItsRule6 caseDecodeAllocFollowsItsRule6.dstBase (decodedN caseDecodeAllocFollowsItsRule6) ∧ Apart (srcAt caseDecodeAllocFollowsItsRule6) (srcN caseDecodeAllocFollowsItsRule6) caseDecodeAllocFollowsItsRule6.dstBase (decodedN caseDecodeAllocFollowsItsRule6) ∧
        decodeText 0 (srcData caseDecodeAllocFollowsItsRule6) = .err 0x52#8 1) := by
  unfold SrcInRange InDmem Apart
  refine ⟨?_, ?_, ?_, ?_, ?_, ?_, ?_, ?_⟩ <;> decide +kernel

/-- "aQ==aQ==" fails in its first group, which is not final; "TWFuaQ==" decodes (L2.3). -/
theorem witness_TextDecodesGroupByGroup :
    groupDecode gAQ ([gAQ].isEmpty) = .err 0x3D#8 2 ∧
    groupDecode gTWFu false = .ok ⟨0x4D#8, 0x61#8, 0x6E#8⟩ 3 ∧
    groupDecode gAQ true = .ok ⟨0x69#8, 0, 0⟩ 1 := by decide +kernel

/-- A case of the witness below. -/
def caseValidateFollowsItsRule1 : State :=
  region qszhPad 0 8 0 0 0

theorem witness_ValidateFollowsItsRule :
    (caseValidateFollowsItsRule1.srcCnt ≠ 0 ∧ caseValidateFollowsItsRule1.srcCnt % 4 = 0 ∧ SrcInRange caseValidateFollowsItsRule1 ∧ InDmem caseValidateFollowsItsRule1 (srcAt caseValidateFollowsItsRule1) (srcN caseValidateFollowsItsRule1) ∧
        decodeText 0 (srcData caseValidateFollowsItsRule1) = .ok (bytes [0xAA, 0xCC, 0xE1, 0xE8, 0x13])) ∧
    (region qszhPad 0 0 0 0 0).srcCnt = 0 := by
  unfold SrcInRange InDmem; decide +kernel

/-- A case of the witness below. -/
def caseValidateAgreesWithDecodeAlloc1 : State :=
  region [0x61, 0x51, 0x3D, 0x3D] 0 4 0x104 0 0

/-- A case of the witness below. -/
def caseValidateAgreesWithDecodeAlloc2 : State :=
  region qszhPad 8 0 0x200 5 5

theorem witness_ValidateAgreesWithDecodeAlloc :
    (caseValidateAgreesWithDecodeAlloc1.srcCnt ≠ 0 ∧ InDmem caseValidateAgreesWithDecodeAlloc1 caseValidateAgreesWithDecodeAlloc1.dstBase (decodedN caseValidateAgreesWithDecodeAlloc1) ∧ Apart (srcAt caseValidateAgreesWithDecodeAlloc1) (srcN caseValidateAgreesWithDecodeAlloc1) caseValidateAgreesWithDecodeAlloc1.dstBase (decodedN caseValidateAgreesWithDecodeAlloc1)) ∧
    (caseValidateAgreesWithDecodeAlloc2.srcCnt = 0 ∧ SrcInRange caseValidateAgreesWithDecodeAlloc2 ∧ 0 ≤ caseValidateAgreesWithDecodeAlloc2.dstOff ∧ caseValidateAgreesWithDecodeAlloc2.dstOff ≤ caseValidateAgreesWithDecodeAlloc2.dstLen) := by
  unfold SrcInRange InDmem Apart; decide +kernel

/-- A case of the witness below. -/
def caseBulkRoundTrip1 : State :=
  region e1Bytes 0 5 0x200 0 0

theorem witness_BulkRoundTrip :
    (Memory.wf caseBulkRoundTrip1.dmem = true ∧ 8 = (srcN caseBulkRoundTrip1 + 2) / 3 * 4 ∧ SrcInRange caseBulkRoundTrip1 ∧ InDmem caseBulkRoundTrip1 (srcAt caseBulkRoundTrip1) (srcN caseBulkRoundTrip1) ∧
        InDmem caseBulkRoundTrip1 caseBulkRoundTrip1.dstBase 8 ∧ Apart (srcAt caseBulkRoundTrip1) (srcN caseBulkRoundTrip1) caseBulkRoundTrip1.dstBase 8 ∧ 8 < 2 ^ 31 ∧
        InDmem caseBulkRoundTrip1 (0x208#32).toNat (srcN caseBulkRoundTrip1) ∧ Apart caseBulkRoundTrip1.dstBase 8 (0x208#32).toNat (srcN caseBulkRoundTrip1)) ∧
    ∃ t, exec .encode (region e1Bytes 0 5 0x200 0 0) = .next t := by
  refine ⟨by unfold SrcInRange InDmem Apart; decide +kernel, ?_⟩
  simp only [exec, execEncode]
  split <;> exact ⟨_, rfl⟩

/-- A case of the witness below. -/
def caseSourceRegionIsNeverWritten1 : State :=
  region [0x71, 0x73, 0x7A, 0x3D] 0 4 0x200 3 0

theorem witness_SourceRegionIsNeverWritten :
    (srcAt caseSourceRegionIsNeverWritten1 ≤ 0x103 ∧ 0x103 < srcAt caseSourceRegionIsNeverWritten1 + srcN caseSourceRegionIsNeverWritten1) ∧
    (∃ t, exec .validate (region qszhPad 0 8 0 0 0) = .next t) ∧ ∃ t, exec .encode (region e1Bytes 7 0 0x200 0 0) = .next t :=
  ⟨by decide +kernel, ⟨_, rfl⟩, _, rfl⟩

/-- A case of the witness below. -/
def caseEncWriteFollowsItsRule1 : State :=
  { encHolds 2 0x4D 0x61 with sink := { base.sink with putAnswers := acks 3 ++ [(0, .err 0xE1)] } }

/-- A case of the witness below. -/
def caseEncWriteFollowsItsRule2 : State :=
  { encHolds 2 0x4D 0x61 with sink := { base.sink with putAnswers := [(0, .err 0xE1)] } }

theorem witness_EncWriteFollowsItsRule :
    encClosed.enc.mode = .closed ∧ encDead.enc.mode = .failed ∧
    ((encHolds 0 0 0).enc.mode = .opened ∧ (encHolds 0 0 0).enc.fill = 0) ∧ (encHolds 1 0x4D 0).enc.fill = 1 ∧
    ((encHolds 2 0x4D 0x61).enc.fill = 2 ∧ (encHolds 2 0x4D 0x61).sink.putAnswers = acks 4 ++ []) ∧
    (3 < 4 ∧ caseEncWriteFollowsItsRule1.enc.mode = .opened ∧ caseEncWriteFollowsItsRule1.enc.fill = 2 ∧ caseEncWriteFollowsItsRule1.sink.putAnswers = acks 3 ++ (0, .err 0xE1) :: [] ∧
        (pack3 caseEncWriteFollowsItsRule1.enc.hb.b0 caseEncWriteFollowsItsRule1.enc.hb.b1 0x6E).chars[3]? = some 0x75#8) ∧
    (caseEncWriteFollowsItsRule2.sink.putAnswers = acks 0 ++ (0, .err 0xE1) :: [] ∧
        (pack3 caseEncWriteFollowsItsRule2.enc.hb.b0 caseEncWriteFollowsItsRule2.enc.hb.b1 0x6E).chars[0]? = some 0x54#8) := by decide +kernel

/-- A case of the witness below. -/
def caseEncCloseFollowsItsRule1 : State :=
  { encHolds 0 0 0 with sink := { base.sink with closeAnswers := [(0, .err 0xE2)] } }

/-- A case of the witness below. -/
def caseEncCloseFollowsItsRule2 : State :=
  { encHolds 1 0x69 0 with sink := { base.sink with putAnswers := acks 3 ++ [(0, .err 7)] } }

/-- A case of the witness below. -/
def caseEncCloseFollowsItsRule3 : State :=
  { encHolds 2 0x4D 0x61 with sink := { base.sink with putAnswers := [(0, .err 7)] } }

theorem witness_EncCloseFollowsItsRule :
    encClosed.enc.mode = .closed ∧ encDead.enc.mode = .failed ∧
    ((encHolds 0 0 0).enc.mode = .opened ∧ (encHolds 0 0 0).sink.closeAnswers = (0, .ack) :: [] ∧
      (encHolds 0 0 0).sink.putAnswers = acks ([] : List Byte).length ++ acks 4 ∧ (encHolds 0 0 0).enc.fill = 0) ∧
    ((encHolds 1 0x69 0).sink.putAnswers = acks (pack1 0x69).chars.length ++ [] ∧ (encHolds 1 0x69 0).enc.fill = 1) ∧
    ((encHolds 2 0x4D 0x61).sink.putAnswers = acks (pack2 0x4D 0x61).chars.length ++ [] ∧
      (encHolds 2 0x4D 0x61).enc.fill = 2) ∧
    (caseEncCloseFollowsItsRule1.sink.closeAnswers = (0, .err 0xE2) :: [] ∧ caseEncCloseFollowsItsRule1.sink.putAnswers = acks 0 ++ []) ∧
    (3 < 4 ∧ caseEncCloseFollowsItsRule2.enc.mode = .opened ∧ caseEncCloseFollowsItsRule2.sink.putAnswers = acks 3 ++ (0, .err 7) :: [] ∧ caseEncCloseFollowsItsRule2.enc.fill = 1 ∧
        (pack1 caseEncCloseFollowsItsRule2.enc.hb.b0).chars[3]? = some 0x3D#8) ∧
    (caseEncCloseFollowsItsRule3.sink.putAnswers = acks 0 ++ (0, .err 7) :: [] ∧ caseEncCloseFollowsItsRule3.enc.fill = 2 ∧
        (pack2 caseEncCloseFollowsItsRule3.enc.hb.b0 caseEncCloseFollowsItsRule3.enc.hb.b1).chars[0]? = some 0x54#8) := by decide +kernel

/-- A case of the witness below. -/
def caseEncoderWaits1 : State :=
  { encHolds 2 0x4D 0x61 with sink := { base.sink with putAnswers := acks 3 ++ [(1, .ack)] } }

/-- A case of the witness below. -/
def caseEncoderWaits2 : State :=
  { hangs (.putting 0x46 [0x75] .write) 0x11 with
        sink := { base.sink with putAnswers := (1, .ack) :: (acks 1 ++ []) } }

/-- ENC_CLOSE waits for its last pad, which the sink answers after more steps. -/
def caseEncoderWaits3 (d : Nat) (a : Answer) : State :=
  { hangs (.putting 0x3D [] .close) 0x12 with sink := { base.sink with putAnswers := [(d, a)] } }

/-- ENC_CLOSE waits for the sink to close. -/
def caseEncoderWaits4 (d : Nat) (a : Answer) : State :=
  { hangs (.closingSink 4) 0x12 with sink := { base.sink with closeAnswers := [(d, a)] } }

theorem witness_EncoderWaitsForTheSink :
    (3 < 4 ∧ caseEncoderWaits1.enc.mode = .opened ∧ caseEncoderWaits1.enc.fill = 2 ∧ (pack3 caseEncoderWaits1.enc.hb.b0 caseEncoderWaits1.enc.hb.b1 0x6E).chars[3]? = some 0x75#8 ∧
        caseEncoderWaits1.sink.putAnswers = acks 3 ++ (0 + 1, .ack) :: []) ∧
    ((hangs .availing 0x23).sink.putAnswers = acks 0 ++ []) ∧
    (caseEncoderWaits2.phase = .putting 0x46 [0x75] .write ∧ caseEncoderWaits2.inputs = [] ∧
        caseEncoderWaits2.sink.putAnswers = (1, .ack) :: (acks [0x75#8].length ++ [])) ∧
    ((encHolds 2 0x4D 0x61).enc.mode = .opened ∧ (encHolds 2 0x4D 0x61).enc.fill = 2 ∧
      (pack3 0x4D 0x61 0x6E).chars = 0x54#8 :: [0x57#8, 0x46#8, 0x75#8] ∧
      (pack2 0x4D 0x61).chars = 0x54#8 :: [0x57#8, 0x45#8, 0x3D#8] ∧ (encHolds 1 0x69 0).enc.fill = 1 ∧
      (pack1 0x69).chars = 0x61#8 :: [0x51#8, 0x3D#8, 0x3D#8] ∧ (encHolds 0 0 0).enc.fill = 0) ∧
    ((caseEncoderWaits3 2 .ack).phase = .putting 0x3D [] .close ∧ (caseEncoderWaits3 2 .ack).inputs = [] ∧
      (caseEncoderWaits3 2 .ack).sink.putAnswers = (0 + 2, .ack) :: [] ∧
      (caseEncoderWaits3 1 (.err 7)).sink.putAnswers = (1, .err 7) :: []) ∧
    ((caseEncoderWaits4 3 .ack).phase = .closingSink 4 ∧ (caseEncoderWaits4 3 .ack).inputs = [] ∧
      (caseEncoderWaits4 3 .ack).sink.closeAnswers = (1 + 2, .ack) :: [] ∧
      (caseEncoderWaits4 1 (.err 7)).sink.closeAnswers = (1, .err 7) :: []) := by decide +kernel

/-- A sink that accepts two groups and a close. -/
def acceptsTwoGroups : State :=
  { base with sink := { base.sink with putAnswers := acks 8, closeAnswers := [(0, .ack)] } }

theorem witness_StreamEncodeEquivalence :
    acceptsTwoGroups.enc.mode = .opened ∧ acceptsTwoGroups.enc.fill = 0 ∧
      acceptsTwoGroups.sink.putAnswers = acks (encodeText (bytes [0x4D, 0x61, 0x6E, 0x69])).length ++ [] ∧
      acceptsTwoGroups.sink.closeAnswers = (0, .ack) :: [] := by decide +kernel

/-- A state that keeps the invariant, whose host issues this command next. -/
def issuing (w : Word) (s : State) : State := withInputs [hostWrites .cmd w] s

theorem issuing_keeps_inv : MachineInv (issuing 0x12 (encHolds 1 0x69 0)) :=
  { params := by decide +kernel
    dmemWf := by decide +kernel
    dmemInside := by decide +kernel
    latched := by decide +kernel
    notDone := by decide +kernel
    encWf := by decide +kernel
    encLatch := by decide +kernel
    decWf := by decide +kernel
    decLatch := by decide +kernel
    phaseWf := True.intro }

theorem witness_SinkSeesOnlyAlphabetAndPad :
    MachineInv (issuing 0x12 (encHolds 1 0x69 0)) ∧ ∃ t, step (issuing 0x12 (encHolds 1 0x69 0)) = .next t :=
  ⟨issuing_keeps_inv, _, rfl⟩

theorem witness_DecReadFollowsItsRule :
    (decIs .closed).dec.mode = .closed ∧ decDead.dec.mode = .failed ∧ (decIs .eoi).dec.mode = .eoi ∧
    (decHolds.dec.mode = .active ∧ decHolds.dec.cursor < decHolds.dec.valid ∧
      [decHolds.dec.buf.b0, decHolds.dec.buf.b1, decHolds.dec.buf.b2][decHolds.dec.cursor.val]? = some 0xCC#8) ∧
    ((text [0x61, 0x51, 0x3D, 0x3D]).dec.mode = .active ∧
      (text [0x61, 0x51, 0x3D, 0x3D]).dec.cursor = (text [0x61, 0x51, 0x3D, 0x3D]).dec.valid ∧
      (text [0x61, 0x51, 0x3D, 0x3D]).source.readAnswers =
        chars gAQ.chars ++ (0, ReadAnswer.eof) :: [] ∧
      groupDecode gAQ true = .ok ⟨0x69#8, 0#8, 0#8⟩ 1) ∧
    groupDecode gAQA true = .err 0x3D#8 2 ∧ (text []).source.readAnswers = (0, ReadAnswer.eof) :: [] ∧
    ((text [0x61]).source.readAnswers = chars [0x61#8] ++ (0, ReadAnswer.eof) :: [] ∧
      (text [0x21, 0x61, 0x51]).source.readAnswers = chars [0x21#8, 0x61#8, 0x51#8] ++ (0, ReadAnswer.eof) :: []) ∧
    (answers (chars [0x71#8, 0x73#8] ++ [(0, .err 0x5E)])).source.readAnswers
      = chars [0x71#8, 0x73#8] ++ (0, .err 0x5E) :: [] := by decide +kernel

/-- A case of the witness below. -/
def caseDecoderWaits1 : State :=
  { pulling with source := { base.source with readAnswers := (1, .char 0x61) :: (chars [0x51, 0x3D, 0x3D] ++ []) } }

/-- A source that gives this answer to the request outstanding, `d` steps from now. -/
def sourceAnswers (r : List (Nat × ReadAnswer)) (k : List (Nat × SkipAnswer)) (v : List (Nat × AvailAnswer))
    (c : List (Nat × Answer)) (s : State) : State := { s with source := ⟨r, k, v, c, []⟩ }

/-- Each wait of the decoder's commands for an answer so many steps away, with more than one step to go and with one. -/
theorem witness_DecoderWaitsForTheSource_later :
    ((sourceAnswers [(2, .eof)] [] [] [] pulling).phase = .pulling [] .read ∧
      (sourceAnswers [(2, .eof)] [] [] [] pulling).inputs = [] ∧
      (sourceAnswers [(2, .eof)] [] [] [] pulling).source.readAnswers = (0 + 2, .eof) :: [] ∧
      (sourceAnswers [(1, .err 5)] [] [] [] (hangs (.pulling [0x61, 0x51, 0x3D] (.skip 2 1)) 0x22)).source.readAnswers =
        (1, .err 5) :: [] ∧ [0x61#8, 0x51#8, 0x3D#8].length ≤ 3) ∧
    ((sourceAnswers [] [(2, .skipped 4)] [] [] (hangs (.skipping 4 0 5) 0x22)).phase = .skipping 4 0 5 ∧ 4 = 4 * (5 / 3) ∧
      (sourceAnswers [] [(2, .skipped 4)] [] [] (hangs (.skipping 4 0 5) 0x22)).inputs = [] ∧
      (sourceAnswers [] [(2, .skipped 4)] [] [] base).source.skipAnswers = (0 + 2, .skipped 4) :: [] ∧
      (sourceAnswers [] [(1, .skipped 4)] [] [] base).source.skipAnswers = (1, .skipped 4) :: [] ∧ (4#32).toNat ≤ 4 ∧
      (sourceAnswers [] [(1, .err 5)] [] [] base).source.skipAnswers = (1, .err 5) :: [] ∧
      (sourceAnswers [] [(1, .skipped 5)] [] [] base).source.skipAnswers = (1, .skipped 5) :: [] ∧ 4 < (5#32).toNat) ∧
    ((sourceAnswers [] [] [(2, .count 8)] [] (hangs .availing 0x23)).phase = .availing ∧
      (hangs .availing 0x23).dec.cursor ≤ (hangs .availing 0x23).dec.valid ∧
      (sourceAnswers [] [] [(2, .count 8)] [] (hangs .availing 0x23)).inputs = [] ∧
      (sourceAnswers [] [] [(2, .count 8)] [] base).source.availAnswers = (0 + 2, .count 8) :: [] ∧
      (sourceAnswers [] [] [(1, .count 8)] [] base).source.availAnswers = (1, .count 8) :: [] ∧
      (sourceAnswers [] [] [(1, .err 5)] [] base).source.availAnswers = (1, .err 5) :: []) ∧
    ((sourceAnswers [] [] [] [(2, .ack)] (hangs .closingSource 0x24)).phase = .closingSource ∧
      (sourceAnswers [] [] [] [(2, .ack)] (hangs .closingSource 0x24)).inputs = [] ∧
      (sourceAnswers [] [] [] [(2, .ack)] base).source.closeAnswers = (0 + 2, .ack) :: [] ∧
      (sourceAnswers [] [] [] [(1, .ack)] base).source.closeAnswers = (1, .ack) :: [] ∧
      (sourceAnswers [] [] [] [(1, .err 5)] base).source.closeAnswers = (1, .err 5) :: []) := by decide +kernel

/-- Each command of the decoder whose first request is not answered at once. -/
theorem witness_DecoderWaitsForTheSource_first :
    ((5 : Int) = (withArg 5 decHolds).args.arg.toInt ∧ (withArg 5 decHolds).dec.mode = .active ∧
      (withArg 5 decHolds).dec.cursor ≤ (withArg 5 decHolds).dec.valid ∧
      2 = (withArg 5 decHolds).dec.valid.val - (withArg 5 decHolds).dec.cursor.val ∧ 2 + 3 ≤ 5) ∧
    Late (withArg 5 decHolds).source.skipAnswers ∧
    Late (sourceAnswers [] [] [(1, .count 8)] [] base).source.availAnswers ∧ base.dec.mode = .active ∧
    Late (sourceAnswers [] [] [] [(3, .ack)] (decIs .eoi)).source.closeAnswers ∧ (decIs .eoi).dec.mode = .eoi :=
  ⟨by decide +kernel, .inl rfl, .inr ⟨0, _, _, rfl⟩, rfl, .inr ⟨2, _, _, rfl⟩, rfl⟩

theorem witness_DecoderWaitsForTheSource :
    (base.dec.mode = .active ∧ base.dec.cursor = base.dec.valid ∧ base.source.readAnswers = chars [] ++ []) ∧
    ((answers (chars [0x61#8, 0x51#8, 0x3D#8] ++ [(1, .char 0x3D)])).source.readAnswers = chars [0x61#8, 0x51#8, 0x3D#8] ++ (0 + 1, .char 0x3D) :: []) ∧
    (caseDecoderWaits1.phase = .pulling [] .read ∧ caseDecoderWaits1.inputs = [] ∧
        gAQ.chars = [] ++ 0x61 :: [0x51, 0x3D, 0x3D] ∧
        groupDecode gAQ true = .ok ⟨0x69#8, 0#8, 0#8⟩ 1 ∧
        caseDecoderWaits1.source.readAnswers = (1, .char 0x61) :: (chars [0x51, 0x3D, 0x3D] ++ [])) := by decide +kernel

theorem witness_StreamReadEquivalence :
    (text qszhPad).dec = ⟨.active, 0, 0, ⟨0, 0, 0⟩, ⟨.ok, 0, 0⟩⟩ ∧
      (text qszhPad).source.readAnswers =
        chars (encodeText (bytes [0xAA, 0xCC, 0xE1, 0xE8, 0x13])) ++ (0, ReadAnswer.eof) :: [] := by decide +kernel

theorem witness_DecSkipWithoutTheSource :
    (decIs .closed).dec.mode = .closed ∧ decDead.dec.mode = .failed ∧
    ((withArg 0xFFFFFFFF (decIs .eoi)).dec.mode = .eoi ∧ (withArg 0xFFFFFFFF (decIs .eoi)).args.arg.toInt < 0) ∧
    ((withArg 0x80000000 base).dec.mode = .active ∧ (withArg 0x80000000 base).args.arg.toInt < 0) ∧
    (0 : Int) ≤ (withArg 0 (decIs .eoi)).args.arg.toInt ∧
    ((withArg 2 decHolds).dec.mode = .active ∧ 0 ≤ (withArg 2 decHolds).args.arg.toInt ∧
      (decHolds.dec.cursor.val : Int) + (withArg 2 decHolds).args.arg.toInt ≤ decHolds.dec.valid.val) := by decide +kernel

/-- A skip of n bytes with this answer of the source to come. -/
def skips (n : Word) (a : SkipAnswer) (s : State) : State :=
  { withArg n s with source := { s.source with skipAnswers := [(0, a)] } }

/-- A case of the witness below. -/
def caseDecSkipFastPath1 : State :=
  skips 5 (.skipped 4) decHolds

/-- A case of the witness below. -/
def caseDecSkipFastPath2 : State :=
  skips 4 (.skipped 4) (text [0x36, 0x42, 0x4D, 0x3D])

theorem witness_DecSkipFastPath :
    ((5 : Int) = caseDecSkipFastPath1.args.arg.toInt ∧ caseDecSkipFastPath1.dec.mode = .active ∧ caseDecSkipFastPath1.dec.cursor ≤ caseDecSkipFastPath1.dec.valid ∧
        2 = caseDecSkipFastPath1.dec.valid.val - caseDecSkipFastPath1.dec.cursor.val ∧ 2 ≤ 5 ∧ 1 = (5 - 2) / 3 ∧ 0 < 1 ∧ (5 - 2) % 3 = 0 ∧
        caseDecSkipFastPath1.source.skipAnswers = (0, .skipped 4) :: [] ∧ (4#32).toNat = 4 * 1) ∧
    ((skips 3 (.err 9) base).source.skipAnswers = (0, .err 9) :: []) ∧
    ((6#32).toNat ≤ 4 * 2 ∧ (6#32).toNat % 4 ≠ 0 ∧ (skips 6 (.skipped 6) base).source.skipAnswers = (0, .skipped 6) :: [] ∧
      2 = (6 - 0) / 3) ∧
    ((4#32).toNat < 4 * 3 ∧ (4#32).toNat % 4 = 0 ∧ (0#32).toNat < 4 * 3 ∧ 3 = (10 - 0) / 3) ∧
    ((4 - 0) % 3 ≠ 0 ∧ 1 = (4 - 0) / 3 ∧
        caseDecSkipFastPath2.source.readAnswers = chars g6BM.chars ++ [(0, ReadAnswer.eof)] ∧
        groupDecode g6BM true = .ok ⟨0xE8#8, 0x13#8, 0#8⟩ 2 ∧ (4 - 0) % 3 ≤ 2) := by decide +kernel

/-- The fast path is complete, and the source gives "aQ==" and then fails. -/
def caseDecSkipFastPath3 : State :=
  { skips 5 (.skipped 4) base with
    source := { (skips 5 (.skipped 4) base).source with readAnswers := chars gAQ.chars ++ [(0, .err 9)] } }

/-- The clause on what follows a complete fast path: a short group, and a pull that fails. -/
theorem witness_DecSkipFastPath_pulls :
    ((5 : Int) = caseDecSkipFastPath3.args.arg.toInt ∧ caseDecSkipFastPath3.dec.mode = .active ∧
      caseDecSkipFastPath3.dec.cursor ≤ caseDecSkipFastPath3.dec.valid ∧
      0 = caseDecSkipFastPath3.dec.valid.val - caseDecSkipFastPath3.dec.cursor.val ∧ 1 = (5 - 0) / 3 ∧
      caseDecSkipFastPath3.source.skipAnswers = (0, .skipped 4) :: [] ∧ (4#32).toNat = 4 * 1 ∧ (5 - 0) % 3 ≠ 0) ∧
    shown (exec .decSkip caseDecSkipFastPath3) = some (0x902#32, 0, 9, 0) := by decide +kernel

/-- A case of the witness below. -/
def caseDecSkipPullsTheRemainder1 : State :=
  withArg 4 { decHolds with source := (text [0x36, 0x42, 0x4D, 0x3D]).source }

/-- A case of the witness below. -/
def caseDecSkipPullsTheRemainder2 : State :=
  withArg 2 (text [0x61, 0x51, 0x3D, 0x3D, 0x54, 0x57, 0x46, 0x75])

theorem witness_DecSkipPullsTheRemainder :
    ((4 : Int) = caseDecSkipPullsTheRemainder1.args.arg.toInt ∧ caseDecSkipPullsTheRemainder1.dec.mode = .active ∧ caseDecSkipPullsTheRemainder1.dec.cursor ≤ caseDecSkipPullsTheRemainder1.dec.valid ∧
        2 = caseDecSkipPullsTheRemainder1.dec.valid.val - caseDecSkipPullsTheRemainder1.dec.cursor.val ∧ 4 = 2 + 2 ∧
        caseDecSkipPullsTheRemainder1.source.readAnswers = chars g6BM.chars ++ [(0, ReadAnswer.eof)] ∧
        groupDecode g6BM true = .ok ⟨0xE8#8, 0x13#8, 0#8⟩ 2 ∧ 2 ≤ 2) ∧
    ((2 : Int) = caseDecSkipPullsTheRemainder2.args.arg.toInt ∧ 0 = caseDecSkipPullsTheRemainder2.dec.valid.val - caseDecSkipPullsTheRemainder2.dec.cursor.val ∧
        caseDecSkipPullsTheRemainder2.source.readAnswers =
          chars (gAQ.chars ++ gTWFu.chars) ++ [(0, ReadAnswer.eof)] ∧
        groupDecode gAQ true = .ok ⟨0x69#8, 0#8, 0#8⟩ 1 ∧ 1 < 2 ∧
        groupDecode gTWFu true = .ok ⟨0x4D#8, 0x61#8, 0x6E#8⟩ 3) ∧
    (withArg 1 (text [])).source.readAnswers = (0, ReadAnswer.eof) :: [] ∧
    (withArg 2 (text [0x61, 0x51, 0x3D, 0x3D])).source.readAnswers =
      chars gAQ.chars ++ (0, ReadAnswer.eof) :: [] ∧
    groupDecode gAR true = .err 0x52#8 1 ∧
    (withArg 1 (text [0x61])).source.readAnswers = chars [0x61#8] ++ (0, ReadAnswer.eof) :: [] ∧
    (answers (chars [] ++ [(0, .err 3)])).source.readAnswers =
      chars [] ++ (0, .err 3) :: [] := by decide +kernel

/-- "TWFuaQ==", of which SrcSkip(4) discards one group. -/
def skipsOneGroup : State := skips 5 (.skipped 4) (text [0x61, 0x51, 0x3D, 0x3D])

/-- "TWFuaQ==", of which SrcSkip(8) discards everything. -/
def skipsBothGroups : State := skips 6 (.skipped 8) (text [])

/-- Case (a) with N = 4 and n = 5, and case (b) with N = 4 and n = 6 (L2.5). -/
theorem witness_SkipCountLaw :
    (skipsOneGroup.dec = ⟨.active, 0, 0, ⟨0, 0, 0⟩, ⟨.ok, 0, 0⟩⟩ ∧ (5 : Int) = skipsOneGroup.args.arg.toInt ∧
      2 = ((bytes [0x4D, 0x61, 0x6E, 0x69]).length + 2) / 3 ∧ 5 < 3 * 2 ∧
      skipsOneGroup.source.skipAnswers =
        (0, .skipped (BitVec.ofNat 32 (min (4 * (5 / 3)) (encodeText (bytes [0x4D, 0x61, 0x6E, 0x69])).length))) :: [] ∧
      skipsOneGroup.source.readAnswers =
        chars ((encodeText (bytes [0x4D, 0x61, 0x6E, 0x69])).drop (4 * (5 / 3))) ++ (0, ReadAnswer.eof) :: []) ∧
    (skipsBothGroups.dec = ⟨.active, 0, 0, ⟨0, 0, 0⟩, ⟨.ok, 0, 0⟩⟩ ∧ (6 : Int) = skipsBothGroups.args.arg.toInt ∧
      (bytes [0x4D, 0x61, 0x6E, 0x69]).length % 3 ≠ 0 ∧ 3 * 2 ≤ 6 ∧
      skipsBothGroups.source.skipAnswers =
        (0, .skipped (BitVec.ofNat 32 (min (4 * (6 / 3)) (encodeText (bytes [0x4D, 0x61, 0x6E, 0x69])).length))) :: [] ∧
      skipsBothGroups.source.readAnswers =
        chars ((encodeText (bytes [0x4D, 0x61, 0x6E, 0x69])).drop (4 * (6 / 3))) ++ (0, ReadAnswer.eof) :: []) := by
  decide +kernel

/-- A case of the witness below. -/
def caseDecAvailFollowsItsRule1 : State :=
  { decHolds with source := { base.source with availAnswers := [(0, .count 0xFFFFFFFF)] } }

/-- A source that fails SrcAvail. -/
def caseAvailErr : State := { base with source := { base.source with availAnswers := [(0, .err 1)] } }

theorem witness_DecAvailFollowsItsRule :
    (decIs .closed).dec.mode = .closed ∧ decDead.dec.mode = .failed ∧ (decIs .eoi).dec.mode = .eoi ∧
    (caseDecAvailFollowsItsRule1.dec.mode = .active ∧ caseDecAvailFollowsItsRule1.dec.cursor ≤ caseDecAvailFollowsItsRule1.dec.valid ∧ caseDecAvailFollowsItsRule1.source.availAnswers = (0, .count 0xFFFFFFFF) :: []) ∧
    caseAvailErr.source.availAnswers = (0, .err 1) :: [] := by decide +kernel

/-- A case of the witness below. -/
def caseDecCloseFollowsItsRule1 : State :=
  { decIs .eoi with source := { base.source with closeAnswers := [(0, .ack)] } }

/-- A case of the witness below. -/
def caseDecCloseFollowsItsRule2 : State :=
  { decHolds with source := { base.source with closeAnswers := [(0, .err 1)] } }

theorem witness_DecCloseFollowsItsRule :
    (decIs .closed).dec.mode = .closed ∧ decDead.dec.mode = .failed ∧
    (caseDecCloseFollowsItsRule1.dec.mode = .eoi ∧ caseDecCloseFollowsItsRule1.source.closeAnswers = (0, .ack) :: []) ∧
    (caseDecCloseFollowsItsRule2.dec.mode = .active ∧ caseDecCloseFollowsItsRule2.source.closeAnswers = (0, .err 1) :: []) := by decide +kernel

theorem witness_CommandsNeverWriteArguments : ∃ t, exec .tblAlpha (withArg 64 base) = .next t := ⟨_, rfl⟩

theorem witness_CommandFamiliesStaySeparate :
    (∃ t, exec .encClose (encHolds 1 0x69 0) = .next t) ∧ (∃ t, exec .decRead (text qszhPad) = .next t) ∧
      ∃ t, exec .encode (region e1Bytes 7 0 0x200 0 0) = .next t := ⟨⟨_, rfl⟩, ⟨_, rfl⟩, _, rfl⟩

theorem witness_CommandsCompleteOrWaitForAPort :
    (encDead.enc.latchWf = true ∧ encDead.dec.latchWf = true ∧ ∃ t, exec .encWrite encDead = .next t) ∧
      (base.enc.latchWf = true ∧ base.dec.latchWf = true ∧ ∃ t, exec .decAvail base = .next t) :=
  ⟨⟨by decide, by decide, _, rfl⟩, by decide, by decide, _, rfl⟩

theorem witness_PortRequestsAreBounded :
    (∃ t, exec .encClose (encHolds 2 0x4D 0x61) = .next t) ∧
      ∃ t, exec .decSkip (withArg 2 (text [0x61, 0x51, 0x3D, 0x3D, 0x61, 0x51, 0x3D, 0x3D])) = .next t :=
  ⟨⟨_, rfl⟩, _, rfl⟩

theorem dead_keeps_inv :
    MachineInv (issuing 0x10 { encDead with dec := decDead.dec }) :=
  { params := by decide +kernel
    dmemWf := by decide +kernel
    dmemInside := by decide +kernel
    latched := by decide +kernel
    notDone := by decide +kernel
    encWf := by decide +kernel
    encLatch := by decide +kernel
    decWf := by decide +kernel
    decLatch := by decide +kernel
    phaseWf := True.intro }

theorem witness_FailedAdaptersReReportUntilOpened :
    encDead.enc.mode = .failed ∧ decDead.dec.mode = .failed ∧
    MachineInv (issuing 0x10 { encDead with dec := decDead.dec }) ∧
      ∃ t, step (issuing 0x10 { encDead with dec := decDead.dec }) = .next t :=
  ⟨rfl, rfl, dead_keeps_inv, _, rfl⟩

theorem witness_EveryStepKeepsTheInvariant :
    MachineInv (issuing 0x12 (encHolds 1 0x69 0)) ∧ ∃ t, step (issuing 0x12 (encHolds 1 0x69 0)) = .next t :=
  ⟨issuing_keeps_inv, _, rfl⟩

/-- A case of the witness below. -/
def caseCommandsStopByNameInTwoPlaces1 : State :=
  skips 3 (.skipped 5) base

theorem witness_CommandsStopByNameInTwoPlaces :
    ((encHolds 3 0 0).enc.mode = .opened ∧ (encHolds 3 0 0).enc.fill = 3) ∧
    ((3 : Int) = caseCommandsStopByNameInTwoPlaces1.args.arg.toInt ∧ caseCommandsStopByNameInTwoPlaces1.dec.mode = .active ∧ caseCommandsStopByNameInTwoPlaces1.dec.cursor ≤ caseCommandsStopByNameInTwoPlaces1.dec.valid ∧
        0 = caseCommandsStopByNameInTwoPlaces1.dec.valid.val - caseCommandsStopByNameInTwoPlaces1.dec.cursor.val ∧ 1 = (3 - 0) / 3 ∧ caseCommandsStopByNameInTwoPlaces1.source.skipAnswers = (0, .skipped 5) :: [] ∧
        4 * 1 < (5#32).toNat) := by decide +kernel

/-- The invariant on an idle machine with a fresh adapter pair, whatever the host does next. -/
theorem idle_keeps_inv (is : List Input) (a : Args) (source : SourcePort) :
    MachineInv { base with inputs := is, args := a, source := source } :=
  { params := (by decide : base.params.wf = true)
    dmemWf := (by decide : Memory.wf base.dmem = true)
    dmemInside := rfl
    latched := rfl
    notDone := fun _ => rfl
    encWf := fun _ => rfl
    encLatch := rfl
    decWf := (by decide : base.dec.wf = true)
    decLatch := rfl
    phaseWf := True.intro }

theorem witness_StepStopsOnlyOutsideTheInterface :
    (MachineInv (withInputs [.dmemRead 0x10000] base) ∧
      step (withInputs [.dmemRead 0x10000] base) = .fault (.noSuchDmemAddress 0x10000)) ∧
    (MachineInv (withInputs [.csrRead 0x2 .word] base) ∧
      step (withInputs [.csrRead 0x2 .word] base) = .refused (.csrAccessShape 0x2 .word)) ∧
    (MachineInv (issuing 0x22 (skips 3 (.skipped 5) base)) ∧
      step (issuing 0x22 (skips 3 (.skipped 5) base)) = .refused (.skipAnswerTooLarge 4 5)) :=
  ⟨⟨idle_keeps_inv _ _ _, rfl⟩, ⟨idle_keeps_inv _ _ _, rfl⟩, idle_keeps_inv _ _ _, rfl⟩

end Sys2Proof.Tests
end

section
/-! The host port: aligned accesses of the CSR window, and the reserved offsets 0x44-0xFC (R35, R53). -/

namespace Sys2Proof

/-- A 32-bit access that starts inside the window touches it (R53). -/
theorem touchesWindow_word_of_lt (p : Config.Params) {off : Nat} (hoff : off < 256) :
    touchesWindow p (p.csrBase + off) .word = true := by
  rw [touchesWindow_iff]
  simp only [AccessWidth.bytes]
  omega

/-- A 32-bit access at an offset that is a multiple of 4 is aligned, whatever CSR_BASE is (R53, assumption 9). -/
theorem alignedAccess_word_of_mod_four (p : Config.Params) {off : Nat} (hoff : off % 4 = 0) :
    alignedAccess p (p.csrBase + off) .word = true := by
  rw [alignedAccess_iff]
  simp [hoff]

/-- DEC_BUF at 0x40 is the last CSR: above it every offset is reserved (R23, R35). -/
theorem csrAt_eq_none {off : Nat} (hoff : 0x40 < off) : csrAt off = none := by
  refine List.find?_eq_none.2 fun n _ => ?_
  have := csrOffset_le n
  simp only [beq_iff_eq]
  omega

namespace Machine

/-- An aligned host read in the window returns what is at its offset (R23, R53). -/
theorem hostCsrRead_word (s : State) {off : Nat} (hlt : off < 256) (hmod : off % 4 = 0) :
    hostCsrRead (s.params.csrBase + off) .word s =
      .next ((readOffset off s).2.reply (.csr off (readOffset off s).1)) := by
  simp [hostCsrRead, touchesWindow_word_of_lt s.params hlt, alignedAccess_word_of_mod_four s.params hmod]

/-- An aligned host write in the window acts on its offset (R23, R53). -/
theorem hostCsrWrite_word (s : State) (v : Word) {off : Nat} (hlt : off < 256) (hmod : off % 4 = 0) :
    hostCsrWrite (s.params.csrBase + off) .word v s = writeOffset off v s := by
  simp [hostCsrWrite, touchesWindow_word_of_lt s.params hlt, alignedAccess_word_of_mod_four s.params hmod]

/-- The step in which the host reads the window with an aligned access. -/
theorem step_csrRead_word {s : State} {off : Nat} {rest : List Input} (hlt : off < 256) (hmod : off % 4 = 0)
    (hin : s.inputs = .csrRead (s.params.csrBase + off) .word :: rest) :
    step s = advance s.busy (.next ((readOffset off { s with inputs := rest }).2.reply
      (.csr off (readOffset off { s with inputs := rest }).1))) := by
  rw [← hostCsrRead_word { s with inputs := rest } hlt hmod]
  simp [step, handleInput, takeInput, hin]

/-- The step in which the host writes the window with an aligned access. -/
theorem step_csrWrite_word {s : State} {off : Nat} {v : Word} {rest : List Input} (hlt : off < 256)
    (hmod : off % 4 = 0) (hin : s.inputs = .csrWrite (s.params.csrBase + off) .word v :: rest) :
    step s = advance s.busy (writeOffset off v { s with inputs := rest }) := by
  rw [← hostCsrWrite_word { s with inputs := rest } v hlt hmod]
  simp [step, handleInput, takeInput, hin]

/-- A reserved offset reads 0, and the read changes nothing (R35). -/
theorem readOffset_reserved (s : State) {off : Nat} (hoff : 0x40 < off) : readOffset off s = (0, s) := by
  simp [readOffset, csrAt_eq_none hoff]

/-- A write at a reserved offset changes nothing, OVR included (R35). -/
theorem writeOffset_reserved (s : State) (v : Word) {off : Nat} (hoff : 0x40 < off) :
    writeOffset off v s = .next s := by
  simp [writeOffset, csrAt_eq_none hoff, writeRegister]

/-- Settles O12: the access is aligned and inside the window, so it reaches its offset, where no CSR is. -/
theorem reservedOffsetsReadZeroIgnoreWrites : Obligations.ReservedOffsetsReadZeroIgnoreWrites := by
  intro s off v rest hlow hhigh hmod
  have hlt : off < 256 := by omega
  have hreserved : 0x40 < off := by omega
  constructor
  · intro hin
    rw [step_csrRead_word hlt hmod hin, readOffset_reserved _ hreserved]
    rfl
  · intro hin
    rw [step_csrWrite_word hlt hmod hin, writeOffset_reserved _ v hreserved]

end Machine
end Sys2Proof
end

section
/-! DMEM under the commands: only ENCODE, DECODE and DECODE_ALLOC write it, and they write outside their source
region (R58). -/

namespace Sys2Proof.Claims

open Sys2Proof.Machine

/-- Closing the sink leaves DMEM alone (R176). -/
theorem SinkCloses.dmem_eq {sent : Nat} {s u : State} (h : SinkCloses sent s u) : u.dmem = s.dmem := by
  cases h <;> rfl

/-- Offering characters to the sink leaves DMEM alone (R174). -/
theorem Offers.dmem_eq {goal : EmitFor} {c : Byte} {cs : List Byte} {s u : State} (h : Offers goal c cs s u) :
    u.dmem = s.dmem := by
  induction h with
  | failed | late | wrote => rfl
  | accepted _ _ ih => exact ih
  | flushed _ hclose => exact hclose.dmem_eq

/-- Pulling groups from the source leaves DMEM alone (R194). -/
theorem Pulls.dmem_eq {goal : PullFor} {got : List Byte} {s u : State} (h : Pulls goal got s u) :
    u.dmem = s.dmem := by
  induction h with
  | failed | late | readEnds | skipEnds | cutShort | invalid | readMet | skipMet => rfl
  | character _ _ _ ih => exact ih
  | skipMore _ _ _ _ _ ih => exact ih

/-- Skipping on the source leaves DMEM alone (R204). -/
theorem Skips.dmem_eq {asked total left : Nat} {s u : State} (h : Skips asked total left s u) : u.dmem = s.dmem := by
  cases h with
  | failed | late | cutShort | exhausted | met => rfl
  | pulls _ _ _ hpulls => exact hpulls.dmem_eq

end Sys2Proof.Claims

namespace Sys2Proof.Machine

open Sys2Proof.Claims

/-! ### The streaming commands -/

@[simp] theorem emit_group_dmem (goal : EmitFor) (g : TextGroup) (s : State) :
    (emit goal g.chars s).dmem = s.dmem :=
  (emit_offers goal [g.c1, g.c2, g.c3] g.c0 s).dmem_eq

@[simp] theorem closeSink_dmem (sent : Nat) (s : State) : (closeSink sent s).dmem = s.dmem :=
  (awaitSinkClose_sinkCloses sent s.encEmpty.issueSinkClose).dmem_eq

@[simp] theorem encFlush_dmem (s : State) : (encFlush s).dmem = s.dmem := by
  unfold encFlush
  split <;> simp

@[simp] theorem pullGroup_dmem (goal : PullFor) (s : State) : (pullGroup goal s).dmem = s.dmem :=
  (pullGroup_pulls goal s).dmem_eq

@[simp] theorem decReadActive_dmem (s : State) : (decReadActive s).dmem = s.dmem := by
  unfold decReadActive
  split <;> simp

@[simp] theorem skipRest_dmem (total left : Nat) (s : State) : (skipRest total left s).dmem = s.dmem := by
  unfold skipRest
  split <;> simp

@[simp] theorem availAnswered_dmem (a : AvailAnswer) (s : State) : (availAnswered a s).dmem = s.dmem := by
  cases a <;> rfl

@[simp] theorem awaitAvail_dmem (s : State) : (awaitAvail s).dmem = s.dmem := by
  unfold awaitAvail
  split <;> simp

@[simp] theorem sourceClosed_dmem (a : Answer) (s : State) : (sourceClosed a s).dmem = s.dmem := by
  cases a <;> rfl

@[simp] theorem awaitSourceClose_dmem (s : State) : (awaitSourceClose s).dmem = s.dmem := by
  unfold awaitSourceClose
  split <;> simp

/-- An answer to SrcSkip above what was asked stops the machine, so a next state comes of an admitted one (U11). -/
theorem awaitSkip_dmem {asked total left : Nat} {s t : State} (ha : asked = 4 * (left / 3))
    (h : awaitSkip asked total left s = .next t) : t.dmem = s.dmem := by
  have admitted : ∀ w q, s.source.skipAnswers = (0, .skipped w) :: q → w.toNat ≤ asked := by
    intro w q hq
    by_contra hlarge
    simp [awaitSkip, hq, readyAnswer, skipAnswered, Nat.lt_of_not_le hlarge] at h
  obtain ⟨u, hu, hskips⟩ := awaitSkip_skips (total := total) ha admitted
  obtain rfl : u = t := by simpa [hu] using h
  exact hskips.dmem_eq

theorem skipGroups_dmem {total left : Nat} {s t : State} (h : skipGroups total left s = .next t) :
    t.dmem = s.dmem := by
  unfold skipGroups at h
  split at h
  · exact (awaitSkip_dmem rfl h).trans (State.issueSource_dmem s _)
  · cases h
    simp

theorem decSkipActive_dmem {n : Nat} {s t : State} (h : decSkipActive n s = .next t) : t.dmem = s.dmem := by
  simp only [decSkipActive] at h
  split at h
  · cases h
    rfl
  · exact (skipGroups_dmem h :)

theorem encAppend_dmem {s t : State} (h : encAppend s = .next t) : t.dmem = s.dmem := by
  unfold encAppend at h
  split at h <;> cases h <;> simp

theorem execEncWrite_dmem {s t : State} (h : execEncWrite s = .next t) : t.dmem = s.dmem := by
  unfold execEncWrite at h
  split at h
  · cases h
    rfl
  · cases h
    rfl
  · exact encAppend_dmem h

theorem execEncClose_dmem {s t : State} (h : execEncClose s = .next t) : t.dmem = s.dmem := by
  unfold execEncClose at h
  split at h <;> cases h <;> simp

theorem execDecRead_dmem {s t : State} (h : execDecRead s = .next t) : t.dmem = s.dmem := by
  unfold execDecRead at h
  split at h <;> cases h <;> simp

theorem execDecSkip_dmem {s t : State} (h : execDecSkip s = .next t) : t.dmem = s.dmem := by
  unfold execDecSkip at h
  split at h
  · cases h
    rfl
  · cases h
    rfl
  · split at h <;> cases h <;> rfl
  · split at h
    · cases h
      rfl
    · exact decSkipActive_dmem h

theorem execDecAvail_dmem {s t : State} (h : execDecAvail s = .next t) : t.dmem = s.dmem := by
  unfold execDecAvail at h
  split at h <;> cases h <;> simp

theorem execDecClose_dmem {s t : State} (h : execDecClose s = .next t) : t.dmem = s.dmem := by
  unfold execDecClose at h
  split at h <;> cases h <;> simp

theorem execTblAlpha_dmem {s t : State} (h : execTblAlpha s = .next t) : t.dmem = s.dmem := by
  unfold execTblAlpha at h
  split at h <;> cases h <;> rfl

theorem execTblInv_dmem {s t : State} (h : execTblInv s = .next t) : t.dmem = s.dmem := by
  unfold execTblInv at h
  split at h <;> cases h <;> rfl

/-- The three commands that write DMEM (R58). -/
def writesDmem : Instr → Bool
  | .encode | .decode | .decodeAlloc => true
  | .nop | .validate | .tblAlpha | .tblInv | .encOpen | .encWrite | .encClose | .decOpen | .decRead | .decSkip
  | .decAvail | .decClose => false

/-- Every other command leaves all of DMEM as it was (R58). -/
theorem exec_dmem_eq {i : Instr} {s t : State} (hi : writesDmem i = false) (h : exec i s = .next t) :
    t.dmem = s.dmem := by
  cases i with
  | encode | decode | decodeAlloc => cases hi
  | nop | validate | encOpen | decOpen =>
    cases h
    rfl
  | tblAlpha => exact execTblAlpha_dmem h
  | tblInv => exact execTblInv_dmem h
  | encWrite => exact execEncWrite_dmem h
  | encClose => exact execEncClose_dmem h
  | decRead => exact execDecRead_dmem h
  | decSkip => exact execDecSkip_dmem h
  | decAvail => exact execDecAvail_dmem h
  | decClose => exact execDecClose_dmem h

/-! ### The bulk commands that write -/

/-- A region that does not overlap the source region holds no byte of it (R57). -/
theorem outside_of_source_byte {s : State} {dst : Region} {x : Nat} (hdst : (srcRegion s).overlap dst = false)
    (hlow : srcAt s ≤ x) (hhigh : x < srcAt s + srcN s) : x < dst.start ∨ dst.start + dst.len ≤ x := by
  rw [srcRegion_eq, Region.overlap_eq_false_iff] at hdst
  unfold Apart at hdst
  omega

/-- Past the checks of R131 the destination region of ENCODE shares no byte with its source region. -/
theorem not_overlap_of_encodeError_eq_none {s : State} (h : encodeError s = none) :
    (srcRegion s).overlap (encodeDst s) = false := by
  unfold encodeError at h
  split at h
  · cases h
  · split at h
    · cases h
    · exact (dstRegionError_eq_none h).2

/-- A source length that passes step 1 of R140 is a multiple of 4. -/
theorem srcLengthError_eq_none_iff (s : State) : srcLengthError s = none ↔ s.srcCnt % 4 = 0 := by
  simp [srcLengthError]

/-- Past the checks of R140 the source text is whole groups and shares no byte with the destination region. -/
theorem wholeGroups_not_overlap_of_decodeError_eq_none {s : State} (h : decodeError s = none) :
    s.srcCnt % 4 = 0 ∧ (srcRegion s).overlap (decodeDst s) = false := by
  have passes := (findSome?_id_eq_none_iff _).1 h
  exact ⟨(srcLengthError_eq_none_iff s).1 (passes _ (by simp)),
    (dstRegionError_eq_none (passes (dstRegionError s _ _) (by simp))).2⟩

/-- Past the checks of R150 the source text is whole groups and shares no byte with the destination region. -/
theorem wholeGroups_not_overlap_of_decodeAllocError_eq_none {s : State} (h : decodeAllocError s = none) :
    s.srcCnt % 4 = 0 ∧ (srcRegion s).overlap (decodeAllocDst s) = false := by
  have passes := (findSome?_id_eq_none_iff _).1 h
  exact ⟨(srcLengthError_eq_none_iff s).1 (passes _ (by simp)),
    (dstRegionError_eq_none (passes (dstRegionError s _ _) (by simp))).2⟩

/-- The text ENCODE writes fills its destination region (R132). -/
theorem encodeText_srcBytes_length (s : State) : (encodeText (srcBytes s)).length = (encodeDst s).len := by
  simp [encodeText_length, srcBytes, encodeDst, encodedLen, srcRegion]

/-- DECODE and DECODE_ALLOC write nothing outside their destination region, whether the text decodes (R143) or not
(R144). -/
theorem decodeInto_read_outside {s t : State} {dst : Region} {x : Nat} (h4 : s.srcCnt % 4 = 0)
    (hlen : dst.len = decodedN s) (hx : x < dst.start ∨ dst.start + dst.len ≤ x)
    (h : decodeInto s dst = .next t) : Memory.read t.dmem x = Memory.read s.dmem x := by
  unfold decodeInto at h
  split at h <;> cases h
  case h_1 => exact Memory.read_writeBytes_other _ _ _ (by rwa [freeBytes_length])
  case h_2 bytes htext =>
    exact Memory.read_writeBytes_other _ _ _ (by rwa [decodeText_src_length s h4 htext, ← hlen])

theorem execEncode_source_byte {s t : State} {x : Nat} (h : execEncode s = .next t) (hlow : srcAt s ≤ x)
    (hhigh : x < srcAt s + srcN s) : Memory.read t.dmem x = Memory.read s.dmem x := by
  unfold execEncode at h
  split at h <;> cases h
  case h_1 => rfl
  case h_2 hchecks =>
    have hx := outside_of_source_byte (not_overlap_of_encodeError_eq_none hchecks) hlow hhigh
    exact Memory.read_writeBytes_other _ _ _ (by rwa [encodeText_srcBytes_length])

theorem execDecode_source_byte {s t : State} {x : Nat} (h : execDecode s = .next t) (hlow : srcAt s ≤ x)
    (hhigh : x < srcAt s + srcN s) : Memory.read t.dmem x = Memory.read s.dmem x := by
  unfold execDecode at h
  split at h
  · cases h
    rfl
  · rename_i hchecks
    obtain ⟨h4, hdst⟩ := wholeGroups_not_overlap_of_decodeError_eq_none hchecks
    exact decodeInto_read_outside h4 rfl (outside_of_source_byte hdst hlow hhigh) h

theorem execDecodeAlloc_source_byte {s t : State} {x : Nat} (h : execDecodeAlloc s = .next t) (hlow : srcAt s ≤ x)
    (hhigh : x < srcAt s + srcN s) : Memory.read t.dmem x = Memory.read s.dmem x := by
  unfold execDecodeAlloc at h
  split at h
  · cases h
    rfl
  · rename_i hchecks
    obtain ⟨h4, hdst⟩ := wholeGroups_not_overlap_of_decodeAllocError_eq_none hchecks
    exact decodeInto_read_outside h4 rfl (outside_of_source_byte hdst hlow hhigh) h

/-- Settles O36: the commands that write DMEM have passed REGION_OVERLAP and write their destination region alone; the
others write nothing. -/
theorem sourceRegionIsNeverWritten : Obligations.SourceRegionIsNeverWritten := by
  intro i s t x h
  constructor
  · intro hlow hhigh
    cases hi : writesDmem i with
    | false => rw [exec_dmem_eq hi h]
    | true =>
      cases i with
      | encode => exact execEncode_source_byte h hlow hhigh
      | decode => exact execDecode_source_byte h hlow hhigh
      | decodeAlloc => exact execDecodeAlloc_source_byte h hlow hhigh
      | _ => cases hi
  · rintro rfl
    exact exec_dmem_eq rfl h

end Sys2Proof.Machine
end

section
/-! Command words as numbers: which words select a command, and which are illegal (R70-R75). -/

namespace Sys2Proof

/-- A command word is, as a number, its OPCODE: the reserved bits are 0 (R70). -/
@[simp] theorem toNat_encode (i : Instr) : (encode i).toNat = (opcodeOf i).toNat :=
  (BitVec.toNat_append 0#24 (opcodeOf i)).trans (by simp)

@[simp] theorem toNat_opcodeField (w : Word) : (opcodeField w).toNat = w.toNat % 256 := by
  simp [opcodeField, BitVec.extractLsb'_toNat]

/-- R73: a word selects a command by its two fields. -/
theorem decode_ok_iff_fields (w : Word) (i : Instr) :
    decode w = .ok i ↔ w.toNat / 256 = 0 ∧ w.toNat % 256 = (opcodeOf i).toNat := by
  have hop : (opcodeOf i).toNat < 256 := (opcodeOf i).isLt
  rw [decode_ok_iff, ← BitVec.toNat_inj, toNat_encode]
  omega

theorem decode_error_iff_no_command (w : Word) : (∃ e, decode w = .error e) ↔ ∀ i, decode w ≠ .ok i := by
  cases decode w <;> simp

/-- The gaps of R74, as intervals of numbers. -/
theorem opcodeUnassigned_iff (op : Byte) :
    opcodeUnassigned op = true ↔
      (0x05 ≤ op.toNat ∧ op.toNat ≤ 0x07) ∨ (0x0A ≤ op.toNat ∧ op.toNat ≤ 0x0F) ∨
        (0x13 ≤ op.toNat ∧ op.toNat ≤ 0x1F) ∨ 0x25 ≤ op.toNat := by
  simp [opcodeUnassigned, or_assoc]

theorem opcodeUnassigned_opcodeOf (i : Instr) : opcodeUnassigned (opcodeOf i) = false := by
  cases i <;> rfl

/-- Outside the gaps of R74 the opcode map of R72 has no hole. -/
theorem exists_row_of_assigned :
    ∀ op : Byte, opcodeUnassigned op = false → ∃ r ∈ opcodeRows, opcodeOf r.instr = op := by decide +kernel

/-- R74: the unassigned opcodes are those of no command. -/
theorem opcodeUnassigned_iff_no_command (op : Byte) : opcodeUnassigned op = true ↔ ∀ i, opcodeOf i ≠ op := by
  constructor
  · rintro hun i rfl
    rw [opcodeUnassigned_opcodeOf] at hun
    cases hun
  · intro hno
    by_contra hassigned
    obtain ⟨r, -, hr⟩ := exists_row_of_assigned op (Bool.eq_false_iff.2 hassigned)
    exact hno r.instr hr

/-- R74: a word is illegal when a reserved bit is set or its OPCODE is unassigned. -/
theorem decode_error_iff (w : Word) :
    (∃ e, decode w = .error e) ↔ w.toNat / 256 ≠ 0 ∨ opcodeUnassigned (opcodeField w) = true := by
  rw [decode_error_iff_no_command, opcodeUnassigned_iff_no_command, ← imp_iff_not_or]
  simp only [ne_eq, decode_ok_iff_fields, ← BitVec.toNat_inj, toNat_opcodeField, not_and, eq_comm (a := w.toNat % 256)]
  exact forall_comm

/-- Settles O3: decoding inverts `encode`, and a command word is its OPCODE. -/
theorem wordSelectsRowIffOpcodeMatches : Obligations.WordSelectsRowIffOpcodeMatches :=
  ⟨decode_ok_iff_fields, opcodeRows_mask_pattern⟩

/-- Settles O4: the illegal words by their fields, and `decode` answers one command or an error. -/
theorem everyWordIsACommandOrIllegal : Obligations.EveryWordIsACommandOrIllegal := by
  intro w
  constructor
  · rw [decode_error_iff, opcodeUnassigned_iff, toNat_opcodeField]
  · cases hw : decode w with
    | ok i => exact .inl ⟨i, rfl, fun j hj => (Except.ok.inj hj).symm⟩
    | error e => exact .inr ⟨e, rfl⟩

/-- Settles O1: each word written out is the one `encode` gives its command. -/
theorem opcodeMapWordsDecode : Obligations.OpcodeMapWordsDecode :=
  ⟨decode_encode .nop, decode_encode .encode, decode_encode .decode, decode_encode .decodeAlloc,
    decode_encode .validate, decode_encode .tblAlpha, decode_encode .tblInv, decode_encode .encOpen,
    decode_encode .encWrite, decode_encode .encClose, decode_encode .decOpen, decode_encode .decRead,
    decode_encode .decSkip, decode_encode .decAvail, decode_encode .decClose⟩

end Sys2Proof
end

section
/-! The ROMs as arithmetic on indexes, and the two table commands (R103-R107, R120-R122). -/

namespace Sys2Proof.Machine

open Sys2Proof.Claims

/-! ### The inverse and the forward ROMs in numbers (R103, R105) -/

@[simp] theorem toNat_inv5_alpha (s : Sextet) : (inv5 (alpha s)).toNat = s.toNat := by
  simp [inv5]
  omega

@[simp] theorem toNat_inv0_alpha (s : Sextet) : (inv0 (alpha s)).toNat = s.toNat * 4 := by
  simp [inv0, Nat.shiftLeft_eq]
  omega

@[simp] theorem toNat_inv1_alpha (s : Sextet) : (inv1 (alpha s)).toNat = s.toNat / 16 := by
  simp [inv1, Nat.shiftRight_eq_div_pow]
  omega

@[simp] theorem toNat_inv2_alpha (s : Sextet) : (inv2 (alpha s)).toNat = s.toNat % 16 * 16 := by
  simp [inv2, Nat.shiftLeft_eq, Nat.and_two_pow_sub_one_eq_mod _ 4]
  omega

@[simp] theorem toNat_inv3_alpha (s : Sextet) : (inv3 (alpha s)).toNat = s.toNat / 4 := by
  simp [inv3, Nat.shiftRight_eq_div_pow]
  omega

@[simp] theorem toNat_inv4_alpha (s : Sextet) : (inv4 (alpha s)).toNat = s.toNat % 4 * 64 := by
  simp [inv4, Nat.shiftLeft_eq, Nat.and_two_pow_sub_one_eq_mod _ 2]
  omega

@[simp] theorem toNat_fwd0 (b : Byte) : (fwd0 b).toNat = b.toNat / 4 := by
  simp [fwd0, Nat.shiftRight_eq_div_pow]
  omega

@[simp] theorem toNat_fwd1 (b : Byte) : (fwd1 b).toNat = b.toNat % 4 * 16 := by
  simp [fwd1, Nat.shiftLeft_eq, Nat.and_two_pow_sub_one_eq_mod _ 2]
  omega

@[simp] theorem toNat_fwd2 (b : Byte) : (fwd2 b).toNat = b.toNat % 16 * 4 := by
  simp [fwd2, Nat.shiftLeft_eq, Nat.and_two_pow_sub_one_eq_mod _ 4]
  omega

@[simp] theorem toNat_fwd3 (b : Byte) : (fwd3 b).toNat = b.toNat % 64 := by
  simp [fwd3, Nat.and_two_pow_sub_one_eq_mod _ 6]

/-- Settles O24: a member is ALPHA of one index, and each ROM is arithmetic on that index or on the byte. -/
theorem tableLaws : Obligations.TableLaws := by
  refine ⟨fun i => ⟨isAlpha_alpha i, toNat_inv5_alpha i⟩, fun c hno => ?_, fun c hc n hn => ?_, fun b => by simp⟩
  · by_contra hmember
    obtain ⟨i, hi⟩ := exists_alpha_of_isAlpha (Bool.not_eq_false _ ▸ hmember)
    exact hno i hi
  · obtain ⟨i, rfl⟩ := exists_alpha_of_isAlpha hc
    obtain rfl : i.toNat = n := by rw [← hn, toNat_inv5_alpha]
    simp

/-! ### TBL_ALPHA and TBL_INV (R120-R122) -/

/-- The alphabet written out is the ALPHA ROM in index order (R101). -/
theorem alphabet_eq_ofFn : alphabet = List.ofFn fun i : Fin 64 => (alpha (BitVec.ofFin i)).toNat := by decide +kernel

theorem alphabet_getElem?_eq_some_iff (k c : Nat) :
    alphabet[k]? = some c ↔ ∃ i : Sextet, i.toNat = k ∧ (alpha i).toNat = c := by
  rw [alphabet_eq_ofFn, List.getElem?_ofFn, Option.dite_none_right_eq_some]
  constructor
  · rintro ⟨hk, hc⟩
    exact ⟨BitVec.ofFin ⟨k, hk⟩, rfl, Option.some.inj hc⟩
  · rintro ⟨i, rfl, rfl⟩
    exact ⟨i.isLt, rfl⟩

theorem mem_alphabet_iff (c : Nat) : c ∈ alphabet ↔ ∃ i : Sextet, (alpha i).toNat = c := by
  simp [List.mem_iff_getElem?, alphabet_getElem?_eq_some_iff]

/-- Every number up to 63 is an index (R16). -/
theorem exists_sextet_toNat_eq {n : Nat} (hn : n < 64) : ∃ i : Sextet, i.toNat = n :=
  ⟨BitVec.ofNat 6 n, Nat.mod_eq_of_lt hn⟩

/-- TBL_ALPHA with an index in ARG (R120). -/
theorem exec_tblAlpha_of_index {s : State} {i : Sextet} (hi : i.toNat = s.args.arg.toNat) :
    exec .tblAlpha s = .next (completed s .ok (zext (alpha i)) 0 0) := by
  have hle : ¬s.argNat > 63 := by
    have := i.isLt
    simp only [State.argNat]
    omega
  have hofNat : BitVec.ofNat 6 s.argNat = i := by simp [State.argNat, ← hi]
  rw [← State.finish_eq_completed _ _ _ _ _ (.inl rfl)]
  simp [exec, execTblAlpha, hle, hofNat]

/-- What TBL_INV tests: ARG is the code of some index, with no truncation to 8 bits (R121). -/
theorem tblInv_test_iff (n : Nat) :
    (n ≤ invTop ∧ inv5 (BitVec.ofNat 8 n) ≠ sentinel) ↔ ∃ i : Sextet, (alpha i).toNat = n := by
  constructor
  · rintro ⟨hle, hentry⟩
    have hn : (BitVec.ofNat 8 n).toNat = n := by
      simp only [invTop] at hle
      simp
      omega
    obtain ⟨i, hi⟩ := exists_alpha_of_isAlpha (c := BitVec.ofNat 8 n) (by simp [isAlpha, hn, hle, hentry])
    exact ⟨i, hi ▸ hn⟩
  · rintro ⟨i, rfl⟩
    have hmember := isAlpha_alpha i
    simpa [isAlpha] using hmember

/-- TBL_INV with a character of the alphabet in ARG (R121). -/
theorem exec_tblInv_of_code {s : State} {i : Sextet} (hi : (alpha i).toNat = s.args.arg.toNat) :
    exec .tblInv s = .next (completed s .ok (BitVec.ofNat 32 i.toNat) 0 0) := by
  have htest := (tblInv_test_iff s.argNat).2 ⟨i, hi⟩
  have hcode : BitVec.ofNat 8 s.argNat = alpha i := by simp [State.argNat, ← hi]
  have hentry : (inv5 (alpha i)).setWidth 32 = BitVec.ofNat 32 i.toNat := by
    rw [← toNat_inv5_alpha, BitVec.ofNat_toNat]
  rw [← State.finish_eq_completed _ _ _ _ _ (.inl rfl)]
  rw [hcode] at htest
  simp [exec, execTblInv, hcode, htest, hentry]

/-- TBL_INV with anything else in ARG (R121). -/
theorem exec_tblInv_of_no_code {s : State} (hno : ∀ i, (alpha i).toNat ≠ s.args.arg.toNat) :
    exec .tblInv s = .next (completed s .ok 0xFFFFFFFF#32 0 0) := by
  have htest : ¬(s.argNat ≤ invTop ∧ inv5 (BitVec.ofNat 8 s.argNat) ≠ sentinel) := by
    rw [tblInv_test_iff]
    exact not_exists.2 hno
  rw [← State.finish_eq_completed _ _ _ _ _ (.inl rfl)]
  simp only [exec, execTblInv, if_neg htest]

/-- Settles O22: entry ARG of the alphabet is ALPHA of the index ARG, and no index is above 63. -/
theorem tblAlphaReadsTheAlphabet : Obligations.TblAlphaReadsTheAlphabet := by
  refine fun s => ⟨fun c hc => ?_, fun hlt => ?_, fun hgt => ?_⟩
  · obtain ⟨i, hi, rfl⟩ := (alphabet_getElem?_eq_some_iff _ _).1 hc
    rw [exec_tblAlpha_of_index hi, zext, BitVec.ofNat_toNat]
  · obtain ⟨i, hi⟩ := exists_sextet_toNat_eq hlt
    exact ⟨_, (alphabet_getElem?_eq_some_iff _ _).2 ⟨i, hi, rfl⟩⟩
  · rw [← State.raise_eq_completed]
    exact if_pos hgt

/-- Settles O23: TBL_INV finds the index whose code ARG is, and TBL_ALPHA's RESULT is the code of its ARG. -/
theorem tblInvInvertsTheAlphabet : Obligations.TblInvInvertsTheAlphabet := by
  refine fun s => ⟨fun k hk => ?_, fun hno => ?_, fun hle => ?_⟩
  · obtain ⟨i, rfl, hi⟩ := (alphabet_getElem?_eq_some_iff _ _).1 hk
    exact exec_tblInv_of_code hi
  · rw [mem_alphabet_iff] at hno
    exact exec_tblInv_of_no_code (not_exists.1 hno)
  · obtain ⟨i, hi⟩ := exists_sextet_toNat_eq (Nat.lt_succ_of_le hle)
    have hcode : (alpha i).toNat = (zext (alpha i)).toNat := (BitVec.toNat_setWidth_of_le (by omega)).symm
    refine ⟨_, _, exec_tblAlpha_of_index hi, exec_tblInv_of_code hcode, ?_, rfl, rfl, rfl, rfl⟩
    simp [completed, hi]

end Sys2Proof.Machine
end

section
/-! The packing unit: PACK3, PACK2 and PACK1 as cuts of the 24-bit group, GroupDecode's outcomes in their order, and
the round trip between them (R111-R119). -/

namespace Sys2Proof.Machine

/-! ### The indexes PACK3 looks up, in numbers (R111) -/

theorem toNat_packIndex1 (b0 b1 : Byte) :
    (fwd1 b0 + (fwd0 b1 >>> 2)).toNat = b0.toNat % 4 * 16 + b1.toNat / 16 := by
  simp [Nat.shiftRight_eq_div_pow]
  omega

theorem toNat_packIndex2 (b1 b2 : Byte) :
    (fwd2 b1 + (fwd0 b2 >>> 4)).toNat = b1.toNat % 16 * 4 + b2.toNat / 64 := by
  simp [Nat.shiftRight_eq_div_pow]
  omega

/-- Settles O25: each index PACK3 looks up is the field of the 24-bit value at its place. -/
theorem packingCutsTheGroup : Obligations.PackingCutsTheGroup := by
  rintro b0 b1 b2 v rfl
  refine ⟨?_, rfl, rfl⟩
  simp only [pack3, TextGroup.mk.injEq, alpha_inj]
  simp only [← BitVec.toNat_inj, toNat_fwd0, toNat_packIndex1, toNat_packIndex2, toNat_fwd3, BitVec.toNat_ofNat]
  omega

/-! ### The checks of GroupDecode (R114-R117) -/

theorem padCount_eq (g : TextGroup) (f : Bool) :
    padCount g f = if f = true ∧ g.c3 = 0x3D#8 then (if g.c2 = 0x3D#8 then 2 else 1) else 0 := by
  simp [padCount, padCode]

/-- The pads a padCount counts are the last characters (R115). -/
theorem padCount_cases (g : TextGroup) (f : Bool) :
    padCount g f = 0 ∨ padCount g f = 1 ∧ g.c3 = padCode ∨ padCount g f = 2 ∧ g.c2 = padCode ∧ g.c3 = padCode := by
  rw [padCount_eq]
  split
  · next h3 =>
    split
    · next h2 => exact .inr (.inr ⟨rfl, h2, h3.2⟩)
    · exact .inr (.inl ⟨rfl, h3.2⟩)
  · exact .inl rfl

/-- The data positions of a group are those before its pads. -/
theorem firstInvalid_eq_find? (g : TextGroup) (p : Nat) :
    firstInvalid g p = (g.chars.zipIdx.take (4 - p)).find? fun x => !isAlpha x.1 := rfl

/-- The alphabet check reports the lowest data position outside the alphabet (R116). -/
theorem firstInvalid_eq_some {g : TextGroup} {p k : Nat} {c : Byte} (hk : k < 4 - p) (hc : g.chars[k]? = some c)
    (hbad : isAlpha c = false) (hlow : ∀ j x, j < k → g.chars[j]? = some x → isAlpha x = true) :
    firstInvalid g p = some (c, k) := by
  obtain ⟨hlt, rfl⟩ := List.getElem?_eq_some_iff.1 hc
  rw [firstInvalid_eq_find?, List.find?_eq_some_iff_getElem]
  refine ⟨by simp [hbad], k, by simp; omega, by simp, fun j hj => ?_⟩
  simpa using hlow j _ hj (List.getElem?_eq_getElem (hj.trans hlt))

theorem firstInvalid_eq_none {g : TextGroup} {p : Nat}
    (hall : ∀ k x, k < 4 - p → g.chars[k]? = some x → isAlpha x = true) : firstInvalid g p = none := by
  rw [firstInvalid_eq_find?, List.find?_eq_none]
  intro x hx
  obtain ⟨k, hk, rfl⟩ := List.mem_iff_getElem.1 hx
  simp only [List.length_take, List.length_zipIdx, lt_inf_iff] at hk
  simpa using hall k _ hk.1 (List.getElem?_eq_getElem hk.2)

/-- The zero-bit check with two pads (R117). -/
theorem inv2_eq_zero_iff {c : Byte} (hc : isAlpha c = true) : inv2 c = 0 ↔ (inv5 c).toNat % 16 = 0 := by
  obtain ⟨s, rfl⟩ := exists_alpha_of_isAlpha hc
  simp [← BitVec.toNat_inj]

/-- The zero-bit check with one pad (R117). -/
theorem inv4_eq_zero_iff {c : Byte} (hc : isAlpha c = true) : inv4 c = 0 ↔ (inv5 c).toNat % 4 = 0 := by
  obtain ⟨s, rfl⟩ := exists_alpha_of_isAlpha hc
  simp [← BitVec.toNat_inj]

/-! ### The bytes of a group that passes them (R114, R118) -/

/-- The bytes GroupDecode makes of a group with padCount `p` that passes its checks. -/
def groupBytes (g : TextGroup) (p : Nat) : Buf3 :=
  { b0 := (inv0 g.c0 + inv1 g.c1).setWidth 8
    b1 := if p = 2 then 0 else (inv2 g.c1 + inv3 g.c2).setWidth 8
    b2 := if 1 ≤ p then 0 else (inv4 g.c2 + inv5 g.c3).setWidth 8 }

section
variable {g : TextGroup} {p : Nat} (hp : p ≤ 2) (hdata : firstInvalid g p = none)
include hp hdata

theorem toNat_groupBytes_b0 : (groupBytes g p).b0.toNat = (inv5 g.c0).toNat * 4 + (inv5 g.c1).toNat / 16 := by
  obtain ⟨h0, h1, -, -⟩ := (firstInvalid_none_iff g p hp).1 hdata
  obtain ⟨s0, hs0⟩ := exists_alpha_of_isAlpha h0
  obtain ⟨s1, hs1⟩ := exists_alpha_of_isAlpha h1
  simp [groupBytes, ← hs0, ← hs1]
  omega

theorem toNat_groupBytes_b1 : (groupBytes g p).b1.toNat =
    if p = 2 then 0 else (inv5 g.c1).toNat % 16 * 16 + (inv5 g.c2).toNat / 4 := by
  obtain ⟨-, h1, h2, -⟩ := (firstInvalid_none_iff g p hp).1 hdata
  by_cases hpads : p = 2
  · simp [groupBytes, hpads]
  · obtain ⟨s1, hs1⟩ := exists_alpha_of_isAlpha h1
    obtain ⟨s2, hs2⟩ := exists_alpha_of_isAlpha (h2 (by omega))
    simp [groupBytes, hpads, ← hs1, ← hs2]
    omega

theorem toNat_groupBytes_b2 : (groupBytes g p).b2.toNat =
    if 1 ≤ p then 0 else (inv5 g.c2).toNat % 4 * 64 + (inv5 g.c3).toNat := by
  obtain ⟨-, -, h2, h3⟩ := (firstInvalid_none_iff g p hp).1 hdata
  by_cases hpads : 1 ≤ p
  · simp [groupBytes, hpads]
  · obtain ⟨s2, hs2⟩ := exists_alpha_of_isAlpha (h2 (by omega))
    obtain ⟨s3, hs3⟩ := exists_alpha_of_isAlpha (h3 (by omega))
    simp [groupBytes, hpads, ← hs2, ← hs3]
    omega

end

/-! ### GroupDecode, outcome by outcome -/

theorem groupDecode_of_firstInvalid {g : TextGroup} {f : Bool} {c : Byte} {k : Nat}
    (hinvalid : firstInvalid g (padCount g f) = some (c, k)) : groupDecode g f = .err c k := by
  simp [groupDecode, hinvalid]

section
variable {g : TextGroup} {f : Bool} (hdata : firstInvalid g (padCount g f) = none)
include hdata

theorem groupDecode_of_bits_two_pads (hp : padCount g f = 2) (hbits : inv2 g.c1 ≠ 0) :
    groupDecode g f = .err g.c1 1 := by
  simp only [groupDecode, hdata]
  exact if_pos (by simpa [hp] using hbits)

theorem groupDecode_of_bits_one_pad (hp : padCount g f = 1) (hbits : inv4 g.c2 ≠ 0) :
    groupDecode g f = .err g.c2 2 := by
  simp only [groupDecode, hdata]
  rw [if_neg (by simp [hp])]
  exact if_pos (by simpa [hp] using hbits)

theorem groupDecode_of_checks (hbits1 : padCount g f = 2 → inv2 g.c1 = 0) (hbits2 : padCount g f = 1 → inv4 g.c2 = 0) :
    groupDecode g f = .ok (groupBytes g (padCount g f)) (3 - padCount g f) := by
  simp only [groupDecode, hdata]
  rw [if_neg (by simpa using hbits1), if_neg (by simpa using hbits2)]
  simp only [groupBytes, beq_iff_eq]

end

/-- A group is Ok only when it passes both checks. -/
theorem checks_of_groupDecode_ok {g : TextGroup} {f : Bool} {b : Buf3} {v : Nat} (h : groupDecode g f = .ok b v) :
    firstInvalid g (padCount g f) = none ∧ (padCount g f = 2 → inv2 g.c1 = 0) ∧ (padCount g f = 1 → inv4 g.c2 = 0) := by
  cases hdata : firstInvalid g (padCount g f) with
  | some x => simp [groupDecode_of_firstInvalid hdata] at h
  | none =>
    refine ⟨rfl, fun hp => ?_, fun hp => ?_⟩
    · by_contra hbits
      simp [groupDecode_of_bits_two_pads hdata hp hbits] at h
    · by_contra hbits
      simp [groupDecode_of_bits_one_pad hdata hp hbits] at h

/-- Settles O27: each outcome of GroupDecode under its own condition, the entries of the ROMs read as numbers. -/
theorem groupDecodeReportsTheFirstOffender : Obligations.GroupDecodeReportsTheFirstOffender := by
  intro g f p hpads
  obtain rfl : p = padCount g f := by rw [hpads, padCount_eq]
  refine ⟨fun k c hk hc hbad hlow => groupDecode_of_firstInvalid (firstInvalid_eq_some hk hc hbad hlow), fun hall => ?_⟩
  have hdata := firstInvalid_eq_none hall
  have hle := padCount_le g f
  obtain ⟨-, h1, h2, -⟩ := (firstInvalid_none_iff g _ hle).1 hdata
  refine ⟨fun hp hbits => ?_, fun hp hbits => ?_, fun hbits1 hbits2 => ⟨_, groupDecode_of_checks hdata ?_ ?_,
    toNat_groupBytes_b0 hle hdata, toNat_groupBytes_b1 hle hdata, toNat_groupBytes_b2 hle hdata⟩⟩
  · exact groupDecode_of_bits_two_pads hdata hp (mt (inv2_eq_zero_iff h1).1 hbits)
  · exact groupDecode_of_bits_one_pad hdata hp (mt (inv4_eq_zero_iff (h2 hp.le)).1 hbits)
  · exact fun hp => (inv2_eq_zero_iff h1).2 (hbits1 hp)
  · exact fun hp => (inv4_eq_zero_iff (h2 hp.le)).2 (hbits2 hp)

/-! ### The round trip (R119) -/

theorem groupDecode_pack3 (b0 b1 b2 : Byte) (f : Bool) : groupDecode (pack3 b0 b1 b2) f = .ok ⟨b0, b1, b2⟩ 3 := by
  rw [pack3, groupDecode_alpha4, joinSextets_fwd]

theorem sextet_low4_eq_zero_iff (s : Sextet) : s &&& 0xF#6 = 0 ↔ s.toNat % 16 = 0 := by
  simp [← BitVec.toNat_inj, Nat.and_two_pow_sub_one_eq_mod _ 4]

theorem sextet_low2_eq_zero_iff (s : Sextet) : s &&& 0x3#6 = 0 ↔ s.toNat % 4 = 0 := by
  simp [← BitVec.toNat_inj, Nat.and_two_pow_sub_one_eq_mod _ 2]

/-- PACK2 is PACK3 with a last byte of 0, whose sextets below the second byte are 0 (R112). -/
theorem groupDecode_pack2 (b0 b1 : Byte) : groupDecode (pack2 b0 b1) true = .ok ⟨b0, b1, 0⟩ 2 := by
  have hlow : (fwd2 b1 + (fwd0 0 >>> 4)) &&& 0x3#6 = 0 := by
    rw [sextet_low2_eq_zero_iff, toNat_packIndex2]
    simp
  have hjoin : joinSextets (fwd0 b0) (fwd1 b0 + (fwd0 b1 >>> 2)) (fwd2 b1 + (fwd0 0 >>> 4)) 0 = ⟨b0, b1, 0⟩ :=
    joinSextets_fwd b0 b1 0
  simp only [pack2, pack3, groupDecode_alpha3 _ _ _ hlow, hjoin]

/-- PACK1 is PACK3 with two last bytes of 0, whose sextets below the first byte are 0 (R113). -/
theorem groupDecode_pack1 (b0 : Byte) : groupDecode (pack1 b0) true = .ok ⟨b0, 0, 0⟩ 1 := by
  have hlow : (fwd1 b0 + (fwd0 0 >>> 2)) &&& 0xF#6 = 0 := by
    rw [sextet_low4_eq_zero_iff, toNat_packIndex1]
    simp
  have hjoin : joinSextets (fwd0 b0) (fwd1 b0 + (fwd0 0 >>> 2)) 0 0 = ⟨b0, 0, 0⟩ := joinSextets_fwd b0 0 0
  simp only [pack1, pack3, groupDecode_alpha2 _ _ hlow, hjoin]

/-- A character of the alphabet is ALPHA of its INV5 entry. -/
theorem alpha_eq_of_toNat_eq {s : Sextet} {c : Byte} (hc : isAlpha c = true) (hs : s.toNat = (inv5 c).toNat) :
    alpha s = c := by
  obtain ⟨i, rfl⟩ := exists_alpha_of_isAlpha hc
  rw [alpha_inj, ← BitVec.toNat_inj, hs, toNat_inv5_alpha]

theorem toNat_inv5_lt {c : Byte} (hc : isAlpha c = true) : (inv5 c).toNat < 64 := by
  obtain ⟨i, rfl⟩ := exists_alpha_of_isAlpha hc
  exact toNat_inv5_alpha i ▸ i.isLt

/-- PACK3 of the bytes of a group that passes its checks has the data characters of the group. -/
theorem pack3_groupBytes {g : TextGroup} {p : Nat} (hp : p ≤ 2) (hdata : firstInvalid g p = none)
    (hbits1 : p = 2 → inv2 g.c1 = 0) (hbits2 : p = 1 → inv4 g.c2 = 0) {b : Buf3} (hb : b = groupBytes g p) :
    (pack3 b.b0 b.b1 b.b2).c0 = g.c0 ∧ (pack3 b.b0 b.b1 b.b2).c1 = g.c1 ∧
      (p ≤ 1 → (pack3 b.b0 b.b1 b.b2).c2 = g.c2) ∧ (p = 0 → (pack3 b.b0 b.b1 b.b2).c3 = g.c3) := by
  subst hb
  have hb0 := toNat_groupBytes_b0 hp hdata
  have hb1 := toNat_groupBytes_b1 hp hdata
  have hb2 := toNat_groupBytes_b2 hp hdata
  obtain ⟨h0, h1, h2, h3⟩ := (firstInvalid_none_iff g p hp).1 hdata
  have hlt1 := toNat_inv5_lt h1
  have hlt2 := fun hp1 => toNat_inv5_lt (h2 hp1)
  have hlt3 := fun hp0 => toNat_inv5_lt (h3 hp0)
  rw [inv2_eq_zero_iff h1] at hbits1
  refine ⟨alpha_eq_of_toNat_eq h0 ?_, alpha_eq_of_toNat_eq h1 ?_, fun hp1 => alpha_eq_of_toNat_eq (h2 hp1) ?_,
    fun hp0 => alpha_eq_of_toNat_eq (h3 hp0) ?_⟩
  · rw [toNat_fwd0]
    omega
  · rw [toNat_packIndex1]
    split at hb1 <;> omega
  · rw [inv4_eq_zero_iff (h2 hp1)] at hbits2
    rw [toNat_packIndex2]
    split at hb1 <;> split at hb2 <;> omega
  · rw [toNat_fwd3]
    split at hb2 <;> omega

/-- Two groups are equal when their characters are. -/
theorem TextGroup.eq_of_chars {g t : TextGroup} (h0 : t.c0 = g.c0) (h1 : t.c1 = g.c1) (h2 : t.c2 = g.c2)
    (h3 : t.c3 = g.c3) : g = t := by
  cases g
  cases t
  simp_all

/-- Settles O26: decoding undoes packing, and the bytes of a group that is Ok pack to its data characters. -/
theorem groupRoundTrip : Obligations.GroupRoundTrip := by
  refine ⟨groupDecode_pack3, groupDecode_pack2, groupDecode_pack1, fun g b v h => ?_⟩
  obtain ⟨hdata, hbits1, hbits2⟩ := checks_of_groupDecode_ok h
  obtain ⟨hzero1, hzero2⟩ := groupDecode_zero_past_valid h
  obtain ⟨rfl, rfl⟩ := GroupResult.ok.inj ((groupDecode_of_checks hdata hbits1 hbits2).symm.trans h)
  obtain ⟨h0, h1, h2, h3⟩ := pack3_groupBytes (padCount_le g true) hdata hbits1 hbits2 rfl
  rcases padCount_cases g true with hp | ⟨hp, hc3⟩ | ⟨hp, hc2, hc3⟩
  · exact .inl ⟨by rw [hp], TextGroup.eq_of_chars h0 h1 (h2 (by omega)) (h3 hp)⟩
  · have hb2 := hzero2 (by omega)
    rw [hb2] at h0 h1 h2
    exact .inr (.inl ⟨by rw [hp], TextGroup.eq_of_chars h0 h1 (h2 hp.le) hc3.symm, hb2⟩)
  · have hb1 := hzero1 (by omega)
    have hb2 := hzero2 (by omega)
    rw [hb1, hb2] at h0 h1
    exact .inr (.inr ⟨by rw [hp], TextGroup.eq_of_chars h0 h1 hc2.symm hc3.symm, hb1, hb2⟩)

end Sys2Proof.Machine
end

section
/-! The checks the bulk commands share and how their lists of checks pass (R130-R150); ENCODE and its text (R131-R133);
VALIDATE and its agreement with DECODE_ALLOC (R160, R161). -/

namespace Sys2Proof.Machine

open Sys2Proof.Claims

/-! ### What each check reports -/

theorem srcRangeError_of_offset {s : State} (h : s.srcOff < 0 ∨ s.srcLen < s.srcOff) :
    srcRangeError s = some ⟨.invalidRange, s.args.srcOff, 0⟩ := if_pos h

theorem srcRangeError_of_count {s : State} (hlow : 0 ≤ s.srcOff) (hhigh : s.srcOff ≤ s.srcLen)
    (h : s.srcCnt < 0 ∨ s.srcLen < s.srcOff + s.srcCnt) :
    srcRangeError s = some ⟨.invalidRange, s.args.srcCnt, 1⟩ := by
  rw [srcRangeError, if_neg (by omega), if_pos h]

theorem srcBusError_of_not_inDmem {s : State} (h : ¬InDmem s (srcAt s) (srcN s)) :
    srcBusError s = some ⟨.busError, BitVec.ofNat 32 (srcAt s), 0⟩ := by
  rw [← Region.inDmem_iff] at h
  exact if_pos (by simpa [srcRegion_eq] using h)

theorem srcBusError_eq_none_iff (s : State) : srcBusError s = none ↔ InDmem s (srcAt s) (srcN s) := by
  simp [srcBusError, srcRegion_eq, Region.inDmem_iff]

theorem dstRegionError_of_not_inDmem {s : State} {src : Region} {d n : Nat} (h : ¬InDmem s d n) :
    dstRegionError s src ⟨d, n⟩ = some ⟨.busError, BitVec.ofNat 32 d, 1⟩ := by
  rw [← Region.inDmem_iff] at h
  exact if_pos (by simpa using h)

theorem dstRegionError_of_not_apart {s : State} {a n d m : Nat} (hin : InDmem s d m) (h : ¬Apart a n d m) :
    dstRegionError s ⟨a, n⟩ ⟨d, m⟩ = some ⟨.regionOverlap, 0, 0⟩ := by
  rw [← Region.inDmem_iff] at hin
  rw [← Region.overlap_eq_false_iff, Bool.not_eq_false] at h
  simp [dstRegionError, hin, h]

theorem dstRegionError_eq_none_iff (s : State) (a n d m : Nat) :
    dstRegionError s ⟨a, n⟩ ⟨d, m⟩ = none ↔ InDmem s d m ∧ Apart a n d m := by
  constructor
  · intro h
    obtain ⟨hin, hover⟩ := dstRegionError_eq_none h
    exact ⟨(Region.inDmem_iff s d m).1 hin, (Region.overlap_eq_false_iff a n d m).1 hover⟩
  · rintro ⟨hin, hapart⟩
    rw [← Region.inDmem_iff] at hin
    rw [← Region.overlap_eq_false_iff] at hapart
    simp [dstRegionError, hin, hapart]

theorem dstOffError_eq_none_iff (s : State) : dstOffError s = none ↔ 0 ≤ s.dstOff ∧ s.dstOff ≤ s.dstLen := by
  simp [dstOffError]

theorem capacityError_eq_none_iff (s : State) : capacityError s = none ↔ decodedN s ≤ capacity s := by
  rw [capacityError, decodedLen_eq_decodedN]
  split <;> simp only [reduceCtorEq, true_iff, false_iff] <;> omega

/-! ### The lists of checks -/

/-- The checks of ENCODE in the order of R131. -/
theorem encodeError_eq_findSome? (s : State) :
    encodeError s =
      [srcRangeError s, srcBusError s, dstRegionError s (srcRegion s) (encodeDst s)].findSome? id := by
  cases hrange : srcRangeError s with
  | some r => simp [encodeError, hrange]
  | none =>
    cases hin : (srcRegion s).inDmem s.params.dmemSize <;> simp [encodeError, srcBusError, hrange, hin]

theorem srcBytes_eq_srcData (s : State) : srcBytes s = srcData s := rfl

theorem encodeDst_eq (s : State) : encodeDst s = ⟨s.dstBase, (srcN s + 2) / 3 * 4⟩ := rfl

theorem decodeDst_eq (s : State) : decodeDst s = ⟨dstAt s, decodedN s⟩ := rfl

theorem decodeAllocDst_eq (s : State) : decodeAllocDst s = ⟨s.dstBase, decodedN s⟩ := rfl

/-- The checks of R131 pass exactly for a source in range whose region and destination are in DMEM and apart. -/
theorem encodeError_eq_none_iff (s : State) :
    encodeError s = none ↔
      SrcInRange s ∧ InDmem s (srcAt s) (srcN s) ∧ InDmem s s.dstBase ((srcN s + 2) / 3 * 4) ∧
        Apart (srcAt s) (srcN s) s.dstBase ((srcN s + 2) / 3 * 4) := by
  rw [encodeError_eq_findSome?, findSome?_id_eq_none_iff]
  simp [srcRangeError_eq_none_iff, srcBusError_eq_none_iff, srcRegion_eq, encodeDst_eq, dstRegionError_eq_none_iff]

/-- Steps 1 to 7 of R140 pass. -/
theorem decodeError_eq_none_iff (s : State) :
    decodeError s = none ↔
      s.srcCnt % 4 = 0 ∧ SrcInRange s ∧ (0 ≤ s.dstOff ∧ s.dstOff ≤ s.dstLen) ∧ InDmem s (srcAt s) (srcN s) ∧
        decodedN s ≤ capacity s ∧ InDmem s (dstAt s) (decodedN s) ∧
        Apart (srcAt s) (srcN s) (dstAt s) (decodedN s) := by
  rw [decodeError, findSome?_id_eq_none_iff]
  simp [srcLengthError_eq_none_iff, srcRangeError_eq_none_iff, dstOffError_eq_none_iff, srcBusError_eq_none_iff,
    capacityError_eq_none_iff, srcRegion_eq, decodeDst_eq, dstRegionError_eq_none_iff]

/-- The checks of R150 before the characters pass. -/
theorem decodeAllocError_eq_none_iff (s : State) :
    decodeAllocError s = none ↔
      s.srcCnt % 4 = 0 ∧ SrcInRange s ∧ InDmem s (srcAt s) (srcN s) ∧ InDmem s s.dstBase (decodedN s) ∧
        Apart (srcAt s) (srcN s) s.dstBase (decodedN s) := by
  rw [decodeAllocError, findSome?_id_eq_none_iff]
  simp [srcLengthError_eq_none_iff, srcRangeError_eq_none_iff, srcBusError_eq_none_iff, srcRegion_eq,
    decodeAllocDst_eq, dstRegionError_eq_none_iff]

/-! ### ENCODE -/

/-- A failing check ends ENCODE with its report and changes nothing else. -/
theorem exec_encode_of_error {s : State} {r : Report} (h : encodeError s = some r) :
    exec .encode s = .next (completed s r.code 0 r.info0 r.info1) := by
  rw [← State.report_eq_completed]
  simp [exec, execEncode, h]

/-- Past its checks ENCODE writes the text at DST_BASE (R133). -/
theorem exec_encode_of_checked {s : State} (h : encodeError s = none) :
    exec .encode s =
      .next (completed { s with dmem := Memory.writeBytes s.dmem s.dstBase (encodeText (srcData s)) } .ok
        (BitVec.ofNat 32 ((srcN s + 2) / 3 * 4)) 0 0) := by
  simp only [exec, execEncode, h]
  rw [State.finish_eq_completed _ _ _ _ _ (.inl rfl)]
  rfl

/-- Settles O28: each outcome is the first failing entry of the list of checks, or the text stored at DST_BASE. -/
theorem encodeFollowsItsRule : Obligations.EncodeFollowsItsRule := by
  rintro s _ hwf rfl
  have checks := encodeError_eq_findSome? s
  rw [srcRegion_eq, encodeDst_eq] at checks
  refine ⟨fun hoff => ?_, fun hlow hhigh hcnt => ?_, fun hrange hsrc => ?_, fun hrange hsrc hdst => ?_,
    fun hrange hsrc hdst hover => ?_, fun hrange hsrc hdst hapart => ?_⟩
  · rw [srcRangeError_of_offset hoff] at checks
    exact exec_encode_of_error checks
  · rw [srcRangeError_of_count hlow hhigh hcnt] at checks
    exact exec_encode_of_error checks
  · rw [(srcRangeError_eq_none_iff s).2 hrange, srcBusError_of_not_inDmem hsrc] at checks
    exact exec_encode_of_error checks
  · rw [(srcRangeError_eq_none_iff s).2 hrange, (srcBusError_eq_none_iff s).2 hsrc,
      dstRegionError_of_not_inDmem hdst] at checks
    rw [exec_encode_of_error checks, State.dstBase, BitVec.ofNat_toNat, BitVec.setWidth_eq]
  · rw [(srcRangeError_eq_none_iff s).2 hrange, (srcBusError_eq_none_iff s).2 hsrc,
      dstRegionError_of_not_apart hdst hover] at checks
    exact exec_encode_of_error checks
  · exact ⟨_, exec_encode_of_checked ((encodeError_eq_none_iff s).2 ⟨hrange, hsrc, hdst, hapart⟩),
      encodeText_srcBytes_length s, Memory.writeBytes_stored hwf _ _⟩

/-! ### The text of a byte sequence -/

theorem encodeText_cons (b : Buf3) (bs : List Byte) :
    encodeText ([b.b0, b.b1, b.b2] ++ bs) = (pack3 b.b0 b.b1 b.b2).chars ++ encodeText bs := rfl

/-- Whole groups pack one by one, in order, before what is left (R133). -/
theorem encodeText_groups (groups : List Buf3) (left : List Byte) :
    encodeText ((groups.map fun b => [b.b0, b.b1, b.b2]).flatten ++ left) =
      (groups.map fun b => (pack3 b.b0 b.b1 b.b2).chars).flatten ++ encodeText left := by
  induction groups with
  | nil => rfl
  | cons b groups ih =>
    rw [List.map_cons, List.flatten_cons, List.append_assoc, encodeText_cons, ih, List.map_cons, List.flatten_cons,
      List.append_assoc]

/-- How many pads end the text of `n` bytes (R112, R113, R133). -/
def padsAfter (n : Nat) : Nat := if n % 3 = 1 then 2 else if n % 3 = 2 then 1 else 0

theorem padsAfter_add_three (n : Nat) : padsAfter (n + 3) = padsAfter n := by
  rw [padsAfter, Nat.add_mod_right, padsAfter]

/-- The pads stand at the end of a text, and all before them is of the alphabet. -/
theorem encodeText_eq_body_append_pads (bs : List Byte) :
    ∃ body : List Byte, body.all isAlpha = true ∧
      encodeText bs = body ++ List.replicate (padsAfter bs.length) padCode := by
  induction bs using encodeText.induct with
  | case1 => exact ⟨[], rfl, rfl⟩
  | case2 b0 => exact ⟨[(pack1 b0).c0, (pack1 b0).c1], by simp [pack1, pack3], rfl⟩
  | case3 b0 b1 => exact ⟨[(pack2 b0 b1).c0, (pack2 b0 b1).c1, (pack2 b0 b1).c2], by simp [pack2, pack3], rfl⟩
  | case4 b0 b1 b2 rest ih =>
    obtain ⟨body, hbody, htext⟩ := ih
    refine ⟨(pack3 b0 b1 b2).chars ++ body, by simp [TextGroup.chars, pack3, hbody], ?_⟩
    rw [encodeText, htext, ← List.append_assoc, List.length_cons, List.length_cons, List.length_cons,
      padsAfter_add_three]

/-- Settles O29: the groups pack one by one, and only the group of one or two bytes left has pads. -/
theorem encodedTextIsGroupByGroup : Obligations.EncodedTextIsGroupByGroup :=
  ⟨fun bs => ⟨encodeText_length bs, encodeText_eq_body_append_pads bs⟩, encodeText_groups, rfl, fun _ => rfl,
    fun _ _ => rfl⟩

/-! ### VALIDATE -/

/-- VALIDATE accepts exactly a text of non-zero length, a multiple of 4, in range, in DMEM, that decodes (R160). -/
theorem validText_iff (s : State) :
    validText s = true ↔
      s.srcCnt ≠ 0 ∧ s.srcCnt % 4 = 0 ∧ SrcInRange s ∧ InDmem s (srcAt s) (srcN s) ∧
        ∃ bytes, decodeText 0 (srcData s) = .ok bytes := by
  unfold validText
  split
  case isTrue hcnt =>
    simp only [Bool.false_eq_true, false_iff]
    omega
  split
  case isTrue hrange =>
    simp only [Bool.false_eq_true, false_iff, SrcInRange]
    omega
  rw [srcRegion_eq]
  split
  case isTrue hin =>
    rw [Bool.not_eq_true', ← Bool.not_eq_true, Region.inDmem_iff] at hin
    simp [hin]
  case isFalse hcnt hrange hin =>
    rw [Bool.not_eq_true', Bool.not_eq_false, Region.inDmem_iff] at hin
    have hpass : s.srcCnt ≠ 0 ∧ s.srcCnt % 4 = 0 ∧ SrcInRange s := by
      unfold SrcInRange
      omega
    rw [srcBytes_eq_srcData]
    cases decodeText 0 (srcData s) with
    | ok bytes => simp [hpass, hin]
    | err code index => simp

theorem exec_validate (s : State) :
    exec .validate s = .next (completed s .ok (if validText s then 1 else 0) 0 0) :=
  congrArg Host.Outcome.next (State.finish_eq_completed s _ _ _ _ (.inl rfl))

/-- Settles O33: RESULT is the validity predicate, and completion changes nothing else. -/
theorem validateFollowsItsRule : Obligations.ValidateFollowsItsRule := by
  intro s
  rw [← validText_iff, exec_validate]
  exact ⟨fun hvalid => by rw [if_pos hvalid], fun hinvalid => by rw [if_neg hinvalid]⟩

/-! ### VALIDATE and DECODE_ALLOC -/

/-- The shared end of DECODE and DECODE_ALLOC completes with OK exactly when the text decodes (R143). -/
theorem decodeInto_ok_iff (s : State) (dst : Region) :
    ∃ u, decodeInto s dst = .next u ∧ (u.code = .ok ↔ ∃ bytes, decodeText 0 (srcData s) = .ok bytes) := by
  unfold decodeInto
  rw [srcBytes_eq_srcData]
  cases decodeText 0 (srcData s) with
  | ok bytes => exact ⟨_, rfl, by simp⟩
  | err code index => exact ⟨_, rfl, by simp⟩

theorem srcLengthError_code {s : State} {r : Report} (h : srcLengthError s = some r) : r.code = .invalidLength := by
  unfold srcLengthError at h
  split at h <;> cases h
  rfl

theorem srcRangeError_code {s : State} {r : Report} (h : srcRangeError s = some r) : r.code = .invalidRange := by
  unfold srcRangeError at h
  split at h
  · cases h
    rfl
  · split at h <;> cases h
    rfl

theorem srcBusError_code {s : State} {r : Report} (h : srcBusError s = some r) : r.code = .busError := by
  unfold srcBusError at h
  split at h <;> cases h
  rfl

theorem dstRegionError_code {s : State} {src dst : Region} {r : Report} (h : dstRegionError s src dst = some r) :
    r.code = .busError ∨ r.code = .regionOverlap := by
  unfold dstRegionError at h
  split at h
  · cases h
    exact .inl rfl
  · split at h <;> cases h
    exact .inr rfl

/-- No check of R150 reports OK. -/
theorem decodeAllocError_code_ne_ok {s : State} {r : Report} (h : decodeAllocError s = some r) : r.code ≠ .ok := by
  obtain ⟨check, hmem, hcheck⟩ := List.exists_of_findSome?_eq_some h
  simp only [List.mem_cons, List.not_mem_nil, or_false] at hmem
  rcases hmem with rfl | rfl | rfl | rfl
  · simp [srcLengthError_code hcheck]
  · simp [srcRangeError_code hcheck]
  · simp [srcBusError_code hcheck]
  · rcases dstRegionError_code hcheck with hcode | hcode <;> simp [hcode]

theorem exec_decode_of_checked {s : State} (h : decodeError s = none) :
    exec .decode s = decodeInto s (decodeDst s) := by
  simp only [exec, execDecode, h]

theorem exec_decodeAlloc_of_checked {s : State} (h : decodeAllocError s = none) :
    exec .decodeAlloc s = decodeInto s (decodeAllocDst s) := by
  simp only [exec, execDecodeAlloc, h]

/-- DECODE_ALLOC completes with OK exactly when its checks pass and the text decodes (R150). -/
theorem exec_decodeAlloc_ok_iff (s : State) :
    ∃ u, exec .decodeAlloc s = .next u ∧
      (u.code = .ok ↔ decodeAllocError s = none ∧ ∃ bytes, decodeText 0 (srcData s) = .ok bytes) := by
  cases hcheck : decodeAllocError s with
  | none =>
    rw [exec_decodeAlloc_of_checked hcheck]
    simpa using decodeInto_ok_iff s (decodeAllocDst s)
  | some r =>
    refine ⟨s.report r, by simp [exec, execDecodeAlloc, hcheck], ?_⟩
    simp [State.report, decodeAllocError_code_ne_ok hcheck]

section
variable {s : State} (hcnt : s.srcCnt = 0)
include hcnt

theorem srcN_eq_zero : srcN s = 0 := by
  rw [srcN, hcnt]
  rfl

theorem decodedN_eq_zero : decodedN s = 0 := by
  simp [decodedN, srcN_eq_zero hcnt]

/-- With no source text, a region of no bytes is decoded into: OK with RESULT 0, and DMEM is as it was. -/
theorem decodeInto_of_no_text {dst : Region} (hdst : dst.len = 0) :
    decodeInto s dst = .next (completed s .ok 0 0 0) := by
  have htext : srcBytes s = [] := by
    rw [srcBytes, srcRegion_eq, srcN_eq_zero hcnt]
    rfl
  rw [decodeInto, htext, hdst]
  exact congrArg Host.Outcome.next (State.finish_eq_completed s _ _ _ _ (.inl rfl))

theorem validText_eq_false_of_no_text : validText s = false := if_pos (.inl hcnt)

theorem exec_decode_of_no_text (hrange : SrcInRange s) (hlow : 0 ≤ s.dstOff) (hhigh : s.dstOff ≤ s.dstLen) :
    exec .decode s = .next (completed s .ok 0 0 0) := by
  rw [exec_decode_of_checked, decodeInto_of_no_text hcnt (decodedN_eq_zero hcnt)]
  rw [decodeError_eq_none_iff, srcN_eq_zero hcnt, decodedN_eq_zero hcnt]
  exact ⟨by omega, hrange, ⟨hlow, hhigh⟩, .inl rfl, Nat.zero_le _, .inl rfl, .inl rfl⟩

theorem exec_decodeAlloc_of_no_text (hrange : SrcInRange s) :
    exec .decodeAlloc s = .next (completed s .ok 0 0 0) := by
  rw [exec_decodeAlloc_of_checked, decodeInto_of_no_text hcnt (decodedN_eq_zero hcnt)]
  rw [decodeAllocError_eq_none_iff, srcN_eq_zero hcnt, decodedN_eq_zero hcnt]
  exact ⟨by omega, hrange, .inl rfl, .inl rfl, .inl rfl⟩

end

/-- Settles O34: with the destination in DMEM and apart, the checks and the decoding of DECODE_ALLOC are those of
VALIDATE; with no source text, DECODE and DECODE_ALLOC have nothing to decode and VALIDATE fails its first check. -/
theorem validateAgreesWithDecodeAlloc : Obligations.ValidateAgreesWithDecodeAlloc := by
  intro s
  constructor
  · intro hcnt hdst hapart
    obtain ⟨u, hu, hok⟩ := exec_decodeAlloc_ok_iff s
    refine ⟨_, u, exec_validate s, hu, ?_⟩
    have hresult : (completed s .ok (if validText s then 1 else 0) 0 0).result = 1 ↔ validText s = true := by
      cases h : validText s <;> simp [completed]
    rw [hresult, hok, validText_iff, decodeAllocError_eq_none_iff]
    simp [hcnt, hdst, hapart, and_assoc]
  · intro hcnt hrange hlow hhigh
    refine ⟨?_, exec_decode_of_no_text hcnt hrange hlow hhigh, exec_decodeAlloc_of_no_text hcnt hrange⟩
    rw [exec_validate, validText_eq_false_of_no_text hcnt]
    rfl

end Sys2Proof.Machine
end

section
/-! The streaming encoder: ENC_OPEN and DEC_OPEN, ENC_WRITE and ENC_CLOSE with a sink that answers at once, and a whole
stream against the text ENCODE gives (R172-R179). -/

namespace Sys2Proof.Machine

open Sys2Proof.Claims

/-! ### The shared operations as the states they leave -/

/-- EncFail ends the command with the latch it sets (R175). -/
theorem State.encFail_eq_completed (s : State) (info : Word) :
    s.encFail info = completed (encFailed s info) .sinkError 0 info 0 := rfl

/-- The sticky re-report changes nothing but the completion registers (R246). -/
theorem State.reReport_eq_completed (s : State) (l : Latch) :
    s.reReport l = completed s l.code 0 l.info0 l.info1 := s.raise_eq_completed _ _ _

/-- ENC_WRITE's group is out: the buffer is empty and the mode is kept (R173). -/
theorem emitted_write_eq_completed (s : State) :
    emitted .write s = completed (encEmptied s s.enc.mode) .ok 4 0 0 := rfl

/-! ### ENC_OPEN and DEC_OPEN -/

/-- A fresh encoder reads as 0 (R32, R42). -/
theorem Encoder.fresh_stateWord : Encoder.fresh.stateWord = 0 := by decide

/-- A fresh decoder reads as 0 (R33, R46). -/
theorem Decoder.fresh_stateWord : Decoder.fresh.stateWord = 0 := by decide

/-- The buffer of a fresh decoder reads as 0 (R34, R46). -/
theorem Decoder.fresh_bufWord : Decoder.fresh.bufWord = 0 := by decide

/-- Settles O37: each command writes its adapter's reset state, and nothing else but the completion registers. -/
theorem openCommandsStartFreshStreams : Obligations.OpenCommandsStartFreshStreams :=
  fun _ => ⟨⟨_, rfl, rfl, rfl, Encoder.fresh_stateWord⟩,
    _, rfl, rfl, rfl, Decoder.fresh_stateWord, Decoder.fresh_bufWord⟩

/-! ### ENC_WRITE -/

/-- ENC_WRITE reports a closed stream, whatever its buffer (R173). -/
theorem exec_encWrite_of_closed {s : State} (hmode : s.enc.mode = .closed) :
    exec .encWrite s = .next (completed s .streamClosed 0 0 0) := by
  simp only [exec, execEncWrite, hmode, State.raise_eq_completed]

theorem exec_encWrite_of_failed {s : State} (hmode : s.enc.mode = .failed) :
    exec .encWrite s = .next (completed s s.enc.latch.code 0 s.enc.latch.info0 s.enc.latch.info1) := by
  simp only [exec, execEncWrite, hmode, State.reReport_eq_completed]

section
variable {s : State} {b : Byte} (hb : b = s.argByte) (hopen : s.enc.mode = .opened)
include hb hopen

theorem exec_encWrite_of_fill_zero (hfill : s.enc.fill = 0) :
    exec .encWrite s =
      .next (completed { s with enc := { s.enc with fill := 1, hb := { s.enc.hb with b0 := b } } } .ok 0 0 0) := by
  simp only [exec, execEncWrite, hopen, encAppend, hfill, ← hb]
  rfl

theorem exec_encWrite_of_fill_one (hfill : s.enc.fill = 1) :
    exec .encWrite s =
      .next (completed { s with enc := { s.enc with fill := 2, hb := { s.enc.hb with b1 := b } } } .ok 0 0 0) := by
  simp only [exec, execEncWrite, hopen, encAppend, hfill, ← hb]
  rfl

/-- The third byte completes a group, which is offered (R173). -/
theorem exec_encWrite_of_fill_two (hfill : s.enc.fill = 2) :
    exec .encWrite s =
      .next (emit .write (pack3 s.enc.hb.b0 s.enc.hb.b1 b).chars
        { s with enc := { s.enc with fill := 3, hb := { s.enc.hb with b2 := b } } }) := by
  simp only [exec, execEncWrite, hopen, encAppend, hfill, ← hb]

theorem exec_encWrite_of_acks {later : List (Nat × Answer)} (hfill : s.enc.fill = 2)
    (hputs : s.sink.putAnswers = acks 4 ++ later) :
    exec .encWrite s =
      .next (completed (encEmptied (offered s (pack3 s.enc.hb.b0 s.enc.hb.b1 b).chars later) .opened) .ok 4 0 0) := by
  rw [exec_encWrite_of_fill_two hb hopen hfill, emit_acks _ _ later _ hputs, emitted_write_eq_completed, ← hopen]
  rfl

theorem exec_encWrite_of_err {k : Nat} {info : Word} {later : List (Nat × Answer)} {c : Byte}
    (hfill : s.enc.fill = 2) (hputs : s.sink.putAnswers = acks k ++ (0, .err info) :: later)
    (hc : (pack3 s.enc.hb.b0 s.enc.hb.b1 b).chars[k]? = some c) :
    exec .encWrite s =
      .next (completed
        (encFailed (offering (offered s ((pack3 s.enc.hb.b0 s.enc.hb.b1 b).chars.take k) later) c) info)
        .sinkError 0 info 0) := by
  rw [exec_encWrite_of_fill_two hb hopen hfill, emit_err .write _ k c info later]
  · rfl
  · exact hputs
  · exact hc

end

/-- Settles O38: one case per mode and FILL, and with FILL = 2 one per way the sink takes the group. -/
theorem encWriteFollowsItsRule : Obligations.EncWriteFollowsItsRule := fun _ _ hb =>
  ⟨exec_encWrite_of_closed, exec_encWrite_of_failed, exec_encWrite_of_fill_zero hb, exec_encWrite_of_fill_one hb,
    fun _ hopen => exec_encWrite_of_acks hb hopen, fun _ _ _ _ _ hopen => exec_encWrite_of_err hb hopen⟩

/-! ### ENC_CLOSE -/

/-- `cs` are the characters ENC_CLOSE offers before it closes the sink: one or two pending bytes with pads, or none
(R176). -/
def FlushesAs (e : Encoder) (cs : List Byte) : Prop :=
  e.fill = 0 ∧ cs = [] ∨ e.fill = 1 ∧ cs = (pack1 e.hb.b0).chars ∨ e.fill = 2 ∧ cs = (pack2 e.hb.b0 e.hb.b1).chars

theorem exec_encClose_of_closed {s : State} (hmode : s.enc.mode = .closed) :
    exec .encClose s = .next (completed s .ok 0 0 0) := by
  simp only [exec, execEncClose, hmode]
  rfl

theorem exec_encClose_of_failed {s : State} (hmode : s.enc.mode = .failed) :
    exec .encClose s = .next (completed s s.enc.latch.code 0 s.enc.latch.info0 s.enc.latch.info1) := by
  simp only [exec, execEncClose, hmode, State.reReport_eq_completed]

theorem exec_encClose_of_opened {s : State} (hopen : s.enc.mode = .opened) :
    exec .encClose s = .next (encFlush s) := by
  simp only [exec, execEncClose, hopen]

/-- One or two pending bytes are offered before anything is closed (R176). -/
theorem encFlush_of_pending {s : State} {cs : List Byte}
    (hflush : s.enc.fill = 1 ∧ cs = (pack1 s.enc.hb.b0).chars ∨
      s.enc.fill = 2 ∧ cs = (pack2 s.enc.hb.b0 s.enc.hb.b1).chars) :
    encFlush s = emit .close cs s := by
  obtain ⟨hfill, rfl⟩ | ⟨hfill, rfl⟩ := hflush <;> simp only [encFlush, hfill]

/-- A sink that accepts what is flushed is closed after it (R176). -/
theorem encFlush_of_acks {s : State} {cs : List Byte} {later : List (Nat × Answer)} (hflush : FlushesAs s.enc cs)
    (hputs : s.sink.putAnswers = acks cs.length ++ later) :
    encFlush s = closeSink cs.length (offered s cs later) := by
  obtain ⟨hfill, rfl⟩ | hpending := hflush
  · obtain rfl : s.sink.putAnswers = later := hputs
    rw [offered_nil]
    simp only [encFlush, hfill]
    rfl
  · have hlength : cs.length = 4 := by obtain ⟨-, rfl⟩ | ⟨-, rfl⟩ := hpending <;> rfl
    rw [encFlush_of_pending hpending, emit_acks _ _ later s hputs, hlength]
    rfl

/-- The sink's answer to SinkClose, come at once, ends ENC_CLOSE (R176). -/
theorem closeSink_of_answer {s : State} {sent : Nat} {a : Answer} {q : List (Nat × Answer)}
    (hclose : s.sink.closeAnswers = (0, a) :: q) :
    closeSink sent s = sinkClosed sent a (s.encEmpty.issueSinkClose.withSinkCloseAnswers q) := by
  have hready : readyAnswer s.encEmpty.issueSinkClose.sink.closeAnswers = some (a, q) :=
    (readyAnswer_eq_some_iff _ _ _).2 hclose
  simp only [closeSink, awaitSinkClose, hready]

/-- ENC_CLOSE with a sink that accepts what is flushed and answers the close at once (R176). -/
theorem exec_encClose_of_acks {s : State} {cs : List Byte} {later laterClose : List (Nat × Answer)} {a : Answer}
    (hopen : s.enc.mode = .opened) (hclose : s.sink.closeAnswers = (0, a) :: laterClose)
    (hputs : s.sink.putAnswers = acks cs.length ++ later) (hflush : FlushesAs s.enc cs) :
    exec .encClose s =
      .next (sinkClosed cs.length a ((offered s cs later).encEmpty.issueSinkClose.withSinkCloseAnswers laterClose)) := by
  rw [exec_encClose_of_opened hopen, encFlush_of_acks hflush hputs, closeSink_of_answer]
  exact hclose

/-- ENC_CLOSE with a character the sink refuses: nothing is closed (R176). -/
theorem exec_encClose_of_err {s : State} {cs : List Byte} {k : Nat} {info : Word} {later : List (Nat × Answer)}
    {c : Byte} (hopen : s.enc.mode = .opened) (hputs : s.sink.putAnswers = acks k ++ (0, .err info) :: later)
    (hflush : s.enc.fill = 1 ∧ cs = (pack1 s.enc.hb.b0).chars ∨
      s.enc.fill = 2 ∧ cs = (pack2 s.enc.hb.b0 s.enc.hb.b1).chars)
    (hc : cs[k]? = some c) :
    exec .encClose s =
      .next (completed (encFailed (offering (offered s (cs.take k) later) c) info) .sinkError 0 info 0) := by
  rw [exec_encClose_of_opened hopen, encFlush_of_pending hflush, emit_err _ _ k c info later s hputs hc,
    State.encFail_eq_completed]

/-- Settles O39: one case per mode, and in OPEN one per answer to the close and one for a character that fails. -/
theorem encCloseFollowsItsRule : Obligations.EncCloseFollowsItsRule := by
  refine fun s cs later a laterClose t => ⟨exec_encClose_of_closed, exec_encClose_of_failed, ?_,
    fun k info c _ hopen => exec_encClose_of_err hopen⟩
  rintro hopen hclose hputs hflush rfl
  have hexec := exec_encClose_of_acks hopen hclose hputs hflush
  constructor
  · rintro rfl
    exact hexec
  · rintro info rfl
    exact hexec

/-! ### A whole stream (R179) -/

/-- The byte of an ENC_WRITE comes back out of ARG (R31, R71). -/
theorem argByte_of_setWidth (s : State) (b : Byte) :
    b = State.argByte { s with args := { s.args with arg := b.setWidth 32 } } := by
  apply BitVec.eq_of_toNat_eq
  simp [State.argByte, BitVec.extractLsb'_toNat]
  omega

section
variable {s : State} (b : Byte) (hopen : s.enc.mode = .opened)
include hopen

theorem exists_write_first (hfill : s.enc.fill = 0) :
    ∃ t, WritesAll [b] s t ∧ t.enc = { s.enc with fill := 1, hb := { s.enc.hb with b0 := b } } ∧ t.sink = s.sink :=
  ⟨_, .cons (exec_encWrite_of_fill_zero (argByte_of_setWidth s b) hopen hfill) rfl rfl (.nil _), rfl, rfl⟩

theorem exists_write_second (hfill : s.enc.fill = 1) :
    ∃ t, WritesAll [b] s t ∧ t.enc = { s.enc with fill := 2, hb := { s.enc.hb with b1 := b } } ∧ t.sink = s.sink :=
  ⟨_, .cons (exec_encWrite_of_fill_one (argByte_of_setWidth s b) hopen hfill) rfl rfl (.nil _), rfl, rfl⟩

theorem exists_write_third {later : List (Nat × Answer)} (hfill : s.enc.fill = 2)
    (hputs : s.sink.putAnswers = acks 4 ++ later) :
    ∃ t, WritesAll [b] s t ∧ t.enc.mode = .opened ∧ t.enc.fill = 0 ∧
      t.sink = (offered s (pack3 s.enc.hb.b0 s.enc.hb.b1 b).chars later).sink :=
  ⟨_, .cons (exec_encWrite_of_acks (argByte_of_setWidth s b) hopen hfill hputs) rfl rfl (.nil _), rfl, rfl, rfl⟩

end

theorem acks_add (m n : Nat) : acks (m + n) = acks m ++ acks n := List.replicate_append_replicate.symm

/-- Bytes streamed one after another are streamed together. -/
theorem writesAll_append {bs cs : List Byte} {s t u : State} (hbs : WritesAll bs s t) (hcs : WritesAll cs t u) :
    WritesAll (bs ++ cs) s u := by
  induction hbs with
  | nil => exact hcs
  | cons hexec hidle hok _ ih => exact .cons hexec hidle hok (ih hcs)

/-- Two bytes streamed from an empty buffer are held. -/
theorem exists_writesAll_pair {s : State} (b0 b1 : Byte) (hopen : s.enc.mode = .opened) (hfill : s.enc.fill = 0) :
    ∃ t, WritesAll [b0, b1] s t ∧ t.enc = { s.enc with fill := 2, hb := { s.enc.hb with b0 := b0, b1 := b1 } } ∧
      t.sink = s.sink := by
  obtain ⟨t, hfirst, henc, hsink⟩ := exists_write_first b0 hopen hfill
  obtain ⟨u, hsecond, henc', hsink'⟩ := exists_write_second b1 (s := t) (by rw [henc]; exact hopen) (by rw [henc])
  exact ⟨u, writesAll_append hfirst hsecond, by rw [henc', henc], hsink'.trans hsink⟩

/-- Three bytes streamed from an empty buffer give the sink one group and leave the buffer empty again. -/
theorem exists_writesAll_group {s : State} (b0 b1 b2 : Byte) {later : List (Nat × Answer)}
    (hopen : s.enc.mode = .opened) (hfill : s.enc.fill = 0) (hputs : s.sink.putAnswers = acks 4 ++ later) :
    ∃ t, WritesAll [b0, b1, b2] s t ∧ t.enc.mode = .opened ∧ t.enc.fill = 0 ∧
      t.sink = (offered s (pack3 b0 b1 b2).chars later).sink := by
  obtain ⟨t, hpair, henc, hsink⟩ := exists_writesAll_pair b0 b1 hopen hfill
  obtain ⟨u, hthird, huopen, hufill, husink⟩ :=
    exists_write_third b2 (s := t) (by rw [henc]; exact hopen) (by rw [henc]) (by rw [hsink]; exact hputs)
  exact ⟨u, writesAll_append hpair hthird, huopen, hufill, by rw [husink, offered, hsink, henc]; rfl⟩

/-- Fewer than three bytes streamed from an empty buffer are held, and ENC_CLOSE will flush their text. -/
theorem exists_writesAll_remainder {s : State} {bs : List Byte} (hlen : bs.length < 3)
    (hopen : s.enc.mode = .opened) (hfill : s.enc.fill = 0) :
    ∃ t, WritesAll bs s t ∧ t.enc.mode = .opened ∧ FlushesAs t.enc (encodeText bs) ∧ t.sink = s.sink := by
  match bs, hlen with
  | [], _ => exact ⟨s, .nil s, hopen, .inl ⟨hfill, rfl⟩, rfl⟩
  | [b0], _ =>
    obtain ⟨t, hwrites, henc, hsink⟩ := exists_write_first b0 hopen hfill
    exact ⟨t, hwrites, by rw [henc]; exact hopen, .inr (.inl (by rw [henc]; exact ⟨rfl, rfl⟩)), hsink⟩
  | [b0, b1], _ =>
    obtain ⟨t, hwrites, henc, hsink⟩ := exists_writesAll_pair b0 b1 hopen hfill
    exact ⟨t, hwrites, by rw [henc]; exact hopen, .inr (.inr (by rw [henc]; exact ⟨rfl, rfl⟩)), hsink⟩

/-- Fewer than three bytes, then ENC_CLOSE: the last text of a stream, and its one close request (R176, R179). -/
theorem stream_remainder {s : State} {bs : List Byte} {q qc : List (Nat × Answer)} (hlen : bs.length < 3)
    (hopen : s.enc.mode = .opened) (hfill : s.enc.fill = 0)
    (hputs : s.sink.putAnswers = acks (encodeText bs).length ++ q) (hclose : s.sink.closeAnswers = (0, .ack) :: qc) :
    ∃ t u, WritesAll bs s t ∧ exec .encClose t = .next u ∧ u.phase = .idle ∧ u.code = .ok ∧ u.enc.mode = .closed ∧
      u.sink.accepted = s.sink.accepted ++ encodeText bs ∧
      u.sink.log = s.sink.log ++ (encodeText bs).map SinkReq.put ++ [.close] := by
  obtain ⟨t, hwrites, htopen, hflush, hsink⟩ := exists_writesAll_remainder hlen hopen hfill
  rw [← hsink] at hputs hclose ⊢
  exact ⟨t, _, hwrites, exec_encClose_of_acks htopen hclose hputs hflush, rfl, rfl, rfl, rfl, rfl⟩

/-- Settles O41, by induction on the groups of the byte sequence: a group leaves the encoder as it found it, and the
remainder is flushed by the close. -/
theorem streamEncodeEquivalence : Obligations.StreamEncodeEquivalence := by
  intro s bs q qc hopen hfill hputs hclose
  induction bs using encodeText.induct generalizing s with
  | case1 => exact stream_remainder (by simp) hopen hfill hputs hclose
  | case2 b0 => exact stream_remainder (by simp) hopen hfill hputs hclose
  | case3 b0 b1 => exact stream_remainder (by simp) hopen hfill hputs hclose
  | case4 b0 b1 b2 rest ih =>
    have hgroup : s.sink.putAnswers = acks 4 ++ (acks (encodeText rest).length ++ q) := by
      have hlength : (encodeText (b0 :: b1 :: b2 :: rest)).length = 4 + (encodeText rest).length := List.length_append
      rw [hputs, hlength, acks_add, List.append_assoc]
    obtain ⟨t, hwrites, htopen, htfill, hsink⟩ := exists_writesAll_group b0 b1 b2 hopen hfill hgroup
    obtain ⟨u, v, hrest, hexec, hidle, hok, hclosed, haccepted, hlog⟩ :=
      ih t htopen htfill (by rw [hsink]; rfl) (by rw [hsink]; exact hclose)
    refine ⟨u, v, writesAll_append hwrites hrest, hexec, hidle, hok, hclosed, ?_, ?_⟩
    · simp [haccepted, hsink, offered, encodeText]
    · simp [hlog, hsink, offered, encodeText]

end Sys2Proof.Machine
end

section
/-! The streaming decoder with a source that answers at once: the pull of a group (R194), and DEC_READ, DEC_AVAIL and
DEC_CLOSE rule by rule (R200, R213, R215). -/

namespace Sys2Proof.Machine

open Sys2Proof.Claims

/-! ### The shared operations as the states they leave -/

/-- DecFail ends the command with the latch it sets (R193). -/
theorem State.decFail_eq_decFailed (s : State) (c : Code) (i0 i1 : Word) : s.decFail c i0 i1 = decFailed s c i0 i1 :=
  State.raise_eq_completed _ _ _ _

/-- OK completes with its RESULT (R232). -/
theorem State.finish_ok_eq_completed (s : State) (r : Word) : s.finish .ok r 0 0 = completed s .ok r 0 0 :=
  s.finish_eq_completed _ _ _ _ (.inl rfl)

/-- END_OF_INPUT completes with its RESULT (R201). -/
theorem State.finish_endOfInput_eq_completed (s : State) (r : Word) :
    s.finish .endOfInput r 0 0 = completed s .endOfInput r 0 0 :=
  s.finish_eq_completed _ _ _ _ (.inl rfl)

/-! ### PullGroup, one lemma per way the group can come (R194, R200, R211) -/

/-- A pull reads the answers it is given, not those the state still lists. -/
theorem pullOn_readAnswersLeft (later : List (Nat × ReadAnswer)) (q : List (Nat × ReadAnswer)) :
    ∀ (got : List Byte) (goal : PullFor) (s : State), got.length ≤ 3 →
      pullOn q got goal (readAnswersLeft s later) = pullOn q got goal s := by
  induction q with
  | nil => exact fun _ _ _ _ => rfl
  | cons x q ih =>
    intro got goal s hgot
    match x, got, hgot with
    | (0, .eof), [], _ => cases goal <;> rfl
    | (0, .eof), _ :: _, _ => rfl
    | (0, .err _), _, _ => rfl
    | (d + 1, a), _, _ => cases a <;> rfl
    | (0, .char c), [], _ => exact ih _ _ (s.issueSource .read) (by simp)
    | (0, .char c), [_], _ => exact ih _ _ (s.issueSource .read) (by simp)
    | (0, .char c), [_, _], _ => exact ih _ _ (s.issueSource .read) (by simp)
    | (0, .char c), [c0, c1, c2], _ =>
      rw [pullOn_last, pullOn_last]
      split
      · rfl
      · next b v _ =>
        cases goal with
        | read => rfl
        | skip total left =>
          by_cases hmet : left ≤ v
          · simp only [if_pos hmet]
            rfl
          · simp only [if_neg hmet]
            exact ih _ _ ((s.decLoad b v v).issueSource .read) (by simp)

section
variable {s : State} {later : List (Nat × ReadAnswer)}

/-- Some characters of a group have come: the next SrcRead is outstanding (R191, R194). -/
theorem pullGroup_of_chars {cs : List Byte} (goal : PullFor) (hlen : cs.length ≤ 3)
    (hreads : s.source.readAnswers = chars cs ++ later) :
    pullGroup goal s = pullOn later cs goal (readFrom s (cs.length + 1) later) := by
  rw [pullGroup, hreads, pullOn_chars _ _ _ _ _ (by simpa using hlen), List.nil_append,
    ← pullOn_readAnswersLeft later later cs goal _ hlen]
  simp [readFrom, readAnswersLeft, State.issueSource, List.replicate_succ]

theorem pullGroup_of_eof (goal : PullFor) (hreads : s.source.readAnswers = (0, .eof) :: later) :
    pullGroup goal s = pullEof goal (readFrom s 1 later) :=
  pullGroup_of_chars (cs := []) goal (by simp) hreads

theorem pullGroup_of_cut {cs : List Byte} (goal : PullFor) (hlow : 1 ≤ cs.length) (hhigh : cs.length ≤ 3)
    (hreads : s.source.readAnswers = chars cs ++ (0, .eof) :: later) :
    pullGroup goal s =
      decFailed (readFrom s (cs.length + 1) later) .unexpectedEndOfInput (BitVec.ofNat 32 cs.length) 0 := by
  rw [pullGroup_of_chars goal hhigh hreads, pullOn_eof, if_neg (by omega), State.decFail_eq_decFailed]
  rfl

theorem pullGroup_of_err {cs : List Byte} {info : Word} (goal : PullFor) (hlen : cs.length ≤ 3)
    (hreads : s.source.readAnswers = chars cs ++ (0, .err info) :: later) :
    pullGroup goal s = decFailed (readFrom s (cs.length + 1) later) .sourceError info 0 := by
  rw [pullGroup_of_chars goal hlen hreads, pullOn_err, State.decFail_eq_decFailed]
  rfl

variable {g : TextGroup}

/-- Three characters of a whole group have come, and the fourth is the source's next answer (R194). -/
theorem pullGroup_of_group (goal : PullFor) (hreads : s.source.readAnswers = chars g.chars ++ later) :
    pullGroup goal s =
      pullOn ((0, .char g.c3) :: later) [g.c0, g.c1, g.c2] goal (readFrom s 4 ((0, .char g.c3) :: later)) :=
  pullGroup_of_chars (cs := [g.c0, g.c1, g.c2]) goal (by simp) hreads

theorem pullGroup_of_invalid {c : Byte} {k : Nat} (goal : PullFor)
    (hreads : s.source.readAnswers = chars g.chars ++ later) (hdecode : groupDecode g true = .err c k) :
    pullGroup goal s = decFailed (readFrom s 4 later) .invalidCharacter (c.setWidth 32) (BitVec.ofNat 32 k) := by
  rw [pullGroup_of_group goal hreads, pullOn_last, hdecode]
  exact State.decFail_eq_decFailed _ _ _ _

variable {b : Buf3} {v : Nat}

theorem pullGroup_read_of_ok (hreads : s.source.readAnswers = chars g.chars ++ later)
    (hdecode : groupDecode g true = .ok b v) :
    pullGroup .read s = completed (decLoaded (readFrom s 4 later) b v 1) .ok (b.b0.setWidth 32) 0 0 := by
  rw [pullGroup_of_group _ hreads, pullOn_last, hdecode]
  exact State.finish_ok_eq_completed _ _

/-- A group with enough bytes meets the rest of a skip (R211). -/
theorem pullGroup_skip_of_enough {left : Nat} (total : Nat) (hreads : s.source.readAnswers = chars g.chars ++ later)
    (hdecode : groupDecode g true = .ok b v) (henough : left ≤ v) :
    pullGroup (.skip total left) s =
      completed (decLoaded (readFrom s 4 later) b v left) .ok (BitVec.ofNat 32 (total + left)) 0 0 := by
  rw [pullGroup_of_group _ hreads, pullOn_last, hdecode]
  simp only [if_pos henough]
  exact State.finish_ok_eq_completed _ _

/-- A group with too few bytes for the rest of a skip is taken whole, and the next one is pulled (R211). -/
theorem pullGroup_skip_of_short {left : Nat} (total : Nat) (hreads : s.source.readAnswers = chars g.chars ++ later)
    (hdecode : groupDecode g true = .ok b v) (hshort : v < left) :
    pullGroup (.skip total left) s =
      pullGroup (.skip (total + v) (left - v)) (decLoaded (readFrom s 4 later) b v v) := by
  rw [pullGroup_of_group _ hreads, pullOn_last, hdecode]
  simp only [if_neg (Nat.not_le.2 hshort)]
  exact (pullOn_readAnswersLeft later later [] _ _ (by simp)).symm

end

/-! ### DEC_READ -/

/-- Entry `i` of a holding buffer, read off the list of its bytes (R44). -/
theorem Buf3.get_eq_of_getElem? {buf : Buf3} {i : Nat} {b : Byte} (h : [buf.b0, buf.b1, buf.b2][i]? = some b) :
    buf.get i = b := by
  match i with
  | 0 | 1 | 2 => exact Option.some.inj h
  | i + 3 => simp at h

section
variable {s : State}

theorem exec_decRead_of_closed (hmode : s.dec.mode = .closed) :
    exec .decRead s = .next (completed s .streamClosed 0 0 0) := by
  simp only [exec, execDecRead, hmode, State.raise_eq_completed]

theorem exec_decRead_of_failed (hmode : s.dec.mode = .failed) :
    exec .decRead s = .next (completed s s.dec.latch.code 0 s.dec.latch.info0 s.dec.latch.info1) := by
  simp only [exec, execDecRead, hmode, State.reReport_eq_completed]

theorem exec_decRead_of_eoi (hmode : s.dec.mode = .eoi) :
    exec .decRead s = .next (completed s .endOfInput 0xFFFFFFFF#32 0 0) := by
  simp only [exec, execDecRead, hmode, State.finish_endOfInput_eq_completed]

/-- A buffered byte is served without a source request (R200). -/
theorem exec_decRead_of_buffered (hmode : s.dec.mode = .active) (hbuffered : s.dec.cursor < s.dec.valid) :
    exec .decRead s =
      .next (completed { s with dec := { s.dec with cursor := s.dec.cursor + 1 } } .ok
        ((s.dec.buf.get s.dec.cursor.val).setWidth 32) 0 0) := by
  simp only [exec, execDecRead, hmode, decReadActive, if_pos hbuffered, State.finish_ok_eq_completed, zext]

/-- With an empty buffer DEC_READ pulls a group (R200). -/
theorem exec_decRead_of_empty (hmode : s.dec.mode = .active) (hempty : s.dec.cursor = s.dec.valid) :
    exec .decRead s = .next (pullGroup .read s) := by
  simp only [exec, execDecRead, hmode, decReadActive, hempty, lt_irrefl, if_false]

end

/-- Settles O43: one case per mode, and in ACTIVE one for a buffered byte and one per way the source gives a group. -/
theorem decReadFollowsItsRule : Obligations.DecReadFollowsItsRule := by
  refine fun s later => ⟨exec_decRead_of_closed, exec_decRead_of_failed, exec_decRead_of_eoi, ?_, ?_⟩
  · intro b hmode hbuffered hb
    rw [exec_decRead_of_buffered hmode hbuffered, Buf3.get_eq_of_getElem? hb]
  · intro hmode hempty
    rw [exec_decRead_of_empty hmode hempty]
    refine ⟨?_, ?_, ?_, ?_, ?_⟩
    · exact fun g b v hreads hdecode => congrArg _ (pullGroup_read_of_ok hreads hdecode)
    · exact fun g c k hreads hdecode => congrArg _ (pullGroup_of_invalid .read hreads hdecode)
    · exact fun hreads => congrArg _ (pullGroup_of_eof .read hreads)
    · exact fun cs hlow hhigh hreads => congrArg _ (pullGroup_of_cut .read hlow hhigh hreads)
    · exact fun cs info hlen hreads => congrArg _ (pullGroup_of_err .read hlen hreads)

/-! ### DEC_AVAIL -/

section
variable {s : State}

theorem exec_decAvail_of_closed (hmode : s.dec.mode = .closed) :
    exec .decAvail s = .next (completed s .streamClosed 0 0 0) := by
  simp only [exec, execDecAvail, hmode, State.raise_eq_completed]

theorem exec_decAvail_of_failed (hmode : s.dec.mode = .failed) :
    exec .decAvail s = .next (completed s s.dec.latch.code 0 s.dec.latch.info0 s.dec.latch.info1) := by
  simp only [exec, execDecAvail, hmode, State.reReport_eq_completed]

theorem exec_decAvail_of_eoi (hmode : s.dec.mode = .eoi) : exec .decAvail s = .next (completed s .ok 0 0 0) := by
  simp only [exec, execDecAvail, hmode, State.finish_ok_eq_completed]

/-- The source's answer to SrcAvail, come at once, ends DEC_AVAIL (R213). -/
theorem exec_decAvail_of_answer {a : AvailAnswer} {later : List (Nat × AvailAnswer)} (hmode : s.dec.mode = .active)
    (havail : s.source.availAnswers = (0, a) :: later) :
    exec .decAvail s = .next (availAnswered a ((s.issueSource .avail).withAvailAnswers later)) := by
  have hready : readyAnswer (s.issueSource .avail).source.availAnswers = some (a, later) :=
    (readyAnswer_eq_some_iff _ _ _).2 havail
  simp only [exec, execDecAvail, hmode, awaitAvail, hready]

end

/-- DEC_AVAIL's count fits RESULT: at most 3 buffered bytes and 3 for every 4 of 2^32 − 1 characters (R213). -/
theorem toNat_toWord_avail (d : Decoder) (c : Word) :
    (toWord (d.unread + c.toNat / 4 * 3)).toNat = d.unread + c.toNat / 4 * 3 := by
  have hunread : d.unread ≤ 3 := (Nat.sub_le _ _).trans (Nat.le_of_lt_succ d.valid.isLt)
  have hcount : c.toNat < 2 ^ 32 := c.isLt
  exact Nat.mod_eq_of_lt (by omega)

/-- Settles O50: one case per mode, and in ACTIVE one per answer to SrcAvail. -/
theorem decAvailFollowsItsRule : Obligations.DecAvailFollowsItsRule := by
  refine fun s t a later => ⟨exec_decAvail_of_closed, exec_decAvail_of_failed, exec_decAvail_of_eoi, ?_⟩
  rintro hmode hcursor havail rfl
  have hexec := exec_decAvail_of_answer hmode havail
  constructor
  · rintro c rfl
    refine ⟨toWord (s.dec.unread + c.toNat / 4 * 3), ?_, hexec⟩
    have hle : s.dec.cursor.val ≤ s.dec.valid.val := hcursor
    rw [toNat_toWord_avail, Decoder.unread]
    omega
  · rintro info rfl
    exact hexec

/-! ### DEC_CLOSE -/

section
variable {s : State}

theorem exec_decClose_of_closed (hmode : s.dec.mode = .closed) : exec .decClose s = .next (completed s .ok 0 0 0) := by
  simp only [exec, execDecClose, hmode, State.finish_ok_eq_completed]

theorem exec_decClose_of_failed (hmode : s.dec.mode = .failed) :
    exec .decClose s = .next (completed s s.dec.latch.code 0 s.dec.latch.info0 s.dec.latch.info1) := by
  simp only [exec, execDecClose, hmode, State.reReport_eq_completed]

/-- The source's answer to SrcClose, come at once, ends DEC_CLOSE (R215). -/
theorem exec_decClose_of_answer {a : Answer} {later : List (Nat × Answer)}
    (hmode : s.dec.mode = .active ∨ s.dec.mode = .eoi) (hclose : s.source.closeAnswers = (0, a) :: later) :
    exec .decClose s = .next (sourceClosed a ((s.issueSource .close).withSrcCloseAnswers later)) := by
  have hready : readyAnswer (s.issueSource .close).source.closeAnswers = some (a, later) :=
    (readyAnswer_eq_some_iff _ _ _).2 hclose
  rcases hmode with hmode | hmode <;> simp only [exec, execDecClose, hmode, awaitSourceClose, hready]

end

/-- Settles O51: one case per mode, and in ACTIVE and EOI one per answer to SrcClose. -/
theorem decCloseFollowsItsRule : Obligations.DecCloseFollowsItsRule := by
  refine fun s t a later => ⟨exec_decClose_of_closed, exec_decClose_of_failed, ?_⟩
  rintro hmode hclose rfl
  have hexec := exec_decClose_of_answer hmode hclose
  constructor
  · rintro rfl
    exact hexec
  · rintro info rfl
    exact hexec

end Sys2Proof.Machine
end

section
/-! DEC_SKIP: the requests met without the source, and the fast path with a source that answers at once (R204-R210). -/

namespace Sys2Proof.Machine

open Sys2Proof.Claims

/-- A count that ARG holds as a signed number is the word in ARG (R10, R31). -/
theorem toWord_eq_of_toInt {n : Nat} {w : Word} (hn : (n : Int) = w.toInt) : toWord n = w := by
  rw [← BitVec.ofInt_toInt (x := w), ← hn, BitVec.ofInt_natCast, toWord]

section
variable {s : State}

theorem exec_decSkip_of_closed (hmode : s.dec.mode = .closed) :
    exec .decSkip s = .next (completed s .streamClosed 0 0 0) := by
  simp only [exec, execDecSkip, hmode, State.raise_eq_completed]

theorem exec_decSkip_of_failed (hmode : s.dec.mode = .failed) :
    exec .decSkip s = .next (completed s s.dec.latch.code 0 s.dec.latch.info0 s.dec.latch.info1) := by
  simp only [exec, execDecSkip, hmode, State.reReport_eq_completed]

/-- The check on a negative count comes after the CLOSED and FAILED checks (R205). -/
theorem exec_decSkip_of_neg (hmode : s.dec.mode = .eoi ∨ s.dec.mode = .active) (hneg : s.argInt < 0) :
    exec .decSkip s = .next (completed s .cannotSkip 0 0 0) := by
  rcases hmode with hmode | hmode <;> simp only [exec, execDecSkip, hmode, if_pos hneg] <;> rfl

theorem exec_decSkip_of_eoi (hmode : s.dec.mode = .eoi) (hcount : 0 ≤ s.argInt) :
    exec .decSkip s = .next (completed s .ok 0 0 0) := by
  simp only [exec, execDecSkip, hmode, if_neg (Int.not_lt.2 hcount), State.finish_ok_eq_completed]

theorem exec_decSkip_of_active {n : Nat} (hmode : s.dec.mode = .active) (hn : (n : Int) = s.argInt) :
    exec .decSkip s = decSkipActive n s := by
  simp only [exec, execDecSkip, hmode, ← hn, if_neg (Int.not_lt.2 (Int.natCast_nonneg n)), Int.toNat_natCast]

/-- A request no larger than the unread buffered bytes moves the cursor by it (R206). -/
theorem decSkipActive_of_le_unread {n : Nat} (hn : n ≤ s.dec.unread) :
    decSkipActive n s =
      .next (completed { s with dec := { s.dec with cursor := Fin.ofNat 4 (s.dec.cursor.val + n) } } .ok (toWord n)
        0 0) := by
  simp only [decSkipActive, Nat.min_eq_left hn, Nat.sub_self, if_true, State.finish_ok_eq_completed]

/-- A larger request takes all of them and goes on with the source (R206). -/
theorem decSkipActive_of_unread_lt {n : Nat} (hcursor : s.dec.cursor ≤ s.dec.valid) (hn : s.dec.unread < n) :
    decSkipActive n s =
      skipGroups s.dec.unread (n - s.dec.unread) { s with dec := { s.dec with cursor := s.dec.valid } } := by
  have hmoved : Fin.ofNat 4 (s.dec.cursor.val + s.dec.unread) = s.dec.valid := by
    rw [Decoder.unread, Nat.add_sub_cancel' hcursor, Fin.ofNat_val_eq_self]
  simp only [decSkipActive, Nat.min_eq_right hn.le, if_neg (Nat.sub_ne_zero_of_lt hn), hmoved]

end

/-- Settles O46: one case per mode and sign of the count, and in ACTIVE the request met from the buffer. -/
theorem decSkipWithoutTheSource : Obligations.DecSkipWithoutTheSource := by
  rintro s n rfl
  refine ⟨exec_decSkip_of_closed, exec_decSkip_of_failed, exec_decSkip_of_neg, exec_decSkip_of_eoi, ?_⟩
  intro hmode hcount hbuffered
  obtain ⟨n, hn⟩ := Int.eq_ofNat_of_zero_le hcount
  have hvalid := s.dec.valid.isLt
  have hmoved : (Fin.ofNat 4 (s.dec.cursor.val + n)).val = s.dec.cursor.val + n := Nat.mod_eq_of_lt (by omega)
  refine ⟨Fin.ofNat 4 (s.dec.cursor.val + n), by rw [hmoved, hn]; rfl, ?_⟩
  rw [exec_decSkip_of_active hmode hn.symm, decSkipActive_of_le_unread, toWord_eq_of_toInt hn.symm]
  unfold Decoder.unread
  omega

/-! ### The fast path -/

section
variable {s : State} {total left : Nat}

/-- One or two bytes to skip leave the fast path out (R207). -/
theorem skipGroups_of_lt_three (hleft : left < 3) : skipGroups total left s = .next (skipRest total left s) := by
  simp only [skipGroups, Nat.div_eq_of_lt hleft, lt_irrefl, if_false]

/-- The source's answer to the one SrcSkip of the fast path, come at once (R207). -/
theorem skipGroups_of_answer {a : SkipAnswer} {later : List (Nat × SkipAnswer)} (hleft : 0 < left / 3)
    (hskip : s.source.skipAnswers = (0, a) :: later) :
    skipGroups total left s =
      skipAnswered (4 * (left / 3)) total left a
        ((s.issueSource (.skip (4 * (left / 3)))).withSkipAnswers later) := by
  have hready : readyAnswer (s.issueSource (.skip (4 * (left / 3)))).source.skipAnswers = some (a, later) :=
    (readyAnswer_eq_some_iff _ _ _).2 hskip
  simp only [skipGroups, if_pos hleft, awaitSkip, hready]

variable {w : Word} {asked : Nat}

theorem skipAnswered_err (info : Word) :
    skipAnswered asked total left (.err info) s = .next (decFailed s .sourceError info 0) :=
  congrArg Host.Outcome.next (State.decFail_eq_decFailed _ _ _ _)

/-- The source ended inside a group (R209). -/
theorem skipAnswered_of_cut (hle : w.toNat ≤ asked) (hcut : w.toNat % 4 ≠ 0) :
    skipAnswered asked total left (.skipped w) s =
      .next (decFailed s .unexpectedEndOfInput (BitVec.ofNat 32 (w.toNat % 4)) 0) := by
  simp only [skipAnswered, if_neg (Nat.not_lt.2 hle), if_pos hcut, State.decFail_eq_decFailed, toWord]

/-- The source ended at a group boundary (R210). -/
theorem skipAnswered_of_short (hlt : w.toNat < asked) (hwhole : w.toNat % 4 = 0) :
    skipAnswered asked total left (.skipped w) s =
      .next (completed (decEmptied s .eoi) .ok (BitVec.ofNat 32 (total + w.toNat / 4 * 3)) 0 0) := by
  simp only [skipAnswered, if_neg (Nat.not_lt.2 hlt.le), if_neg (not_not.2 hwhole), if_pos hlt,
    State.finish_ok_eq_completed]
  rfl

/-- The source skipped all it was asked: what is left of the request is met by step 3 (R204, R207). -/
theorem skipAnswered_of_complete {q : Nat} (hall : w.toNat = 4 * q) :
    skipAnswered (4 * q) total left (.skipped w) s = .next (skipRest (total + 3 * q) (left - 3 * q) s) := by
  have hbytes : 4 * q / 4 * 3 = 3 * q := by omega
  simp only [skipAnswered, hall, lt_irrefl, if_false, Nat.mul_mod_right, ne_eq, not_true_eq_false, hbytes]

theorem skipRest_zero : skipRest total 0 s = completed s .ok (BitVec.ofNat 32 total) 0 0 :=
  State.finish_ok_eq_completed _ _

theorem skipRest_of_pos (hleft : 0 < left) : skipRest total left s = pullGroup (.skip total left) s :=
  if_neg hleft.ne'

end

/-- DEC_SKIP in ACTIVE with whole groups to skip after the buffered bytes, and an answer to its SrcSkip (R206, R207). -/
theorem exec_decSkip_of_skip_answer {s : State} {n k q : Nat} {a : SkipAnswer} {later : List (Nat × SkipAnswer)}
    (hmode : s.dec.mode = .active) (hn : (n : Int) = s.argInt) (hcursor : s.dec.cursor ≤ s.dec.valid)
    (hk : k = s.dec.unread) (hq : q = (n - k) / 3) (hgroups : 0 < q) (hskip : s.source.skipAnswers = (0, a) :: later) :
    exec .decSkip s =
      skipAnswered (4 * q) k (n - k) a
        { s with
          dec := { s.dec with cursor := s.dec.valid }
          source := { s.source with skipAnswers := later, log := s.source.log ++ [.skip (4 * q)] } } := by
  subst hk hq
  rw [exec_decSkip_of_active hmode hn, decSkipActive_of_unread_lt hcursor (by omega)]
  exact skipGroups_of_answer hgroups hskip

/-- Settles O47: one case per answer to the SrcSkip, and after a complete one the rest of the request: none, met by the
next group, or whatever the pull gives. -/
theorem decSkipFastPath : Obligations.DecSkipFastPath := by
  rintro s t n k q a later hn hmode hcursor hk hle hq hgroups hskip rfl
  have hrest : n - k - 3 * q = (n - k) % 3 := by omega
  have hall : BitVec.ofNat 32 (k + 3 * q + (n - k) % 3) = s.args.arg := by
    rw [← toWord_eq_of_toInt hn, toWord]
    congr 1
    omega
  rw [exec_decSkip_of_skip_answer hmode hn hcursor hk hq hgroups hskip]
  refine ⟨?_, ?_, ?_, ?_, ?_, ?_⟩
  · rintro info rfl
    exact skipAnswered_err info
  · rintro w rfl hle hcut
    exact skipAnswered_of_cut hle hcut
  · rintro w rfl hlt hwhole
    exact skipAnswered_of_short hlt hwhole
  · rintro w rfl hcomplete hnone
    rw [skipAnswered_of_complete hcomplete, hrest, ← hall, hnone, skipRest_zero, Nat.add_zero]
  · rintro w g b v rest rfl hcomplete hsome hreads hdecode henough
    rw [skipAnswered_of_complete hcomplete, hrest, skipRest_of_pos (Nat.pos_of_ne_zero hsome), ← hall]
    exact congrArg Host.Outcome.next (pullGroup_skip_of_enough _ hreads hdecode henough)
  · rintro w rfl hcomplete hsome
    rw [skipAnswered_of_complete hcomplete, hrest, skipRest_of_pos (Nat.pos_of_ne_zero hsome)]
    exact ⟨_, rfl, pullGroup_pulls _ _⟩

end Sys2Proof.Machine
end

section
/-! The streaming decoder against the text ENCODE gives: what the decoder still has to deliver, read byte by byte (R202)
and skipped over (R212). -/

namespace Sys2Proof.Machine

open Sys2Proof.Claims

/-! ### The text, group by group -/

/-- The first group of a text decodes, as a final one, to the first bytes (R119, R133). -/
theorem exists_first_group {bs : List Byte} (hne : bs ≠ []) :
    ∃ g b v, groupDecode g true = .ok b v ∧ encodeText bs = g.chars ++ encodeText (bs.drop 3) ∧
      b.take v = bs.take 3 ∧ v = min 3 bs.length := by
  match bs, hne with
  | [b0], _ => exact ⟨pack1 b0, _, _, groupDecode_pack1 b0, rfl, rfl, rfl⟩
  | [b0, b1], _ => exact ⟨pack2 b0 b1, _, _, groupDecode_pack2 b0 b1, rfl, rfl, rfl⟩
  | b0 :: b1 :: b2 :: rest, _ =>
    exact ⟨pack3 b0 b1 b2, _, _, groupDecode_pack3 b0 b1 b2 true, rfl, rfl, by simp⟩

/-- Four characters of a text stand for three bytes (R133). -/
theorem encodeText_drop (q : Nat) (bs : List Byte) :
    (encodeText bs).drop (4 * q) = encodeText (bs.drop (3 * q)) := by
  induction q generalizing bs with
  | zero => rfl
  | succ q ih =>
    by_cases hne : bs = []
    · simp [hne, encodeText]
    · obtain ⟨g, -, -, -, htext, -, -⟩ := exists_first_group hne
      have hfirst : (encodeText bs).drop 4 = encodeText (bs.drop 3) := by rw [htext]; rfl
      rw [Nat.mul_succ, Nat.mul_succ, Nat.add_comm, ← List.drop_drop, hfirst, ih, List.drop_drop, Nat.add_comm]

theorem chars_append (cs ds : List Byte) : chars (cs ++ ds) = chars cs ++ chars ds := List.map_append

/-! ### What the decoder still has to deliver -/

/-- The buffered bytes from CURSOR to VALID (R44, R45). -/
def Decoder.unreadBytes (d : Decoder) : List Byte := (d.buf.take d.valid.val).drop d.cursor.val

theorem Decoder.unreadBytes_of_empty {d : Decoder} (h : d.cursor = d.valid) : d.unreadBytes = [] := by
  simp [Decoder.unreadBytes, Buf3.take, h]

/-- The first unread byte is the one at the cursor. -/
theorem Decoder.unreadBytes_of_lt {d : Decoder} (h : d.cursor < d.valid) :
    d.unreadBytes = d.buf.get d.cursor.val :: Decoder.unreadBytes { d with cursor := d.cursor + 1 } := by
  have hlt : d.cursor.val < d.valid.val := h
  have hvalid := d.valid.isLt
  have hnext : (d.cursor + 1).val = d.cursor.val + 1 := by
    rw [Fin.val_add_one_of_lt (lt_of_lt_of_le h (Fin.le_last _))]
  have hlen : d.cursor.val < (d.buf.take d.valid.val).length := by simp [Buf3.take]; omega
  rw [Decoder.unreadBytes, List.drop_eq_getElem_cons hlen, Decoder.unreadBytes, hnext]
  congr 1
  rw [Buf3.get_eq_of_getElem?]
  simp [Buf3.take]

/-- The decoder, with what the source still gives it, delivers exactly these bytes and then END_OF_INPUT: the unread
buffered ones, then those of a text that EOF follows. In EOI there are none left. -/
inductive Delivers : List Byte → State → Prop where
  | active {s : State} {bs rest : List Byte} {q : List (Nat × ReadAnswer)} :
      s.dec.mode = .active → s.dec.cursor ≤ s.dec.valid →
      s.source.readAnswers = chars (encodeText rest) ++ (0, .eof) :: q →
      bs = s.dec.unreadBytes ++ rest → Delivers bs s
  | ended {s : State} : s.dec.mode = .eoi → Delivers [] s

section
variable {s : State} {bs : List Byte} {q : List (Nat × ReadAnswer)} (hmode : s.dec.mode = .active)
include hmode

/-- With an empty buffer the decoder delivers the bytes of its source's text. -/
theorem delivers_of_empty (hempty : s.dec.cursor = s.dec.valid)
    (hreads : s.source.readAnswers = chars (encodeText bs) ++ (0, .eof) :: q) : Delivers bs s :=
  .active hmode hempty.le hreads (by rw [Decoder.unreadBytes_of_empty hempty, List.nil_append])

/-- The first group of a text is loaded and `k` of its bytes are taken: the others are still to be delivered. -/
theorem delivers_of_loaded {b : Buf3} {v k : Nat} {c : Code} {r i0 i1 : Word} (hbytes : b.take v = bs.take 3)
    (hv : v = min 3 bs.length) (hk : k ≤ v) :
    Delivers (bs.drop k)
      (completed (decLoaded (readFrom s 4 (chars (encodeText (bs.drop 3)) ++ (0, .eof) :: q)) b v k) c r i0 i1) := by
  have hcursor : (Fin.ofNat 4 k).val = k := Nat.mod_eq_of_lt (by omega)
  have hvalid : (Fin.ofNat 4 v).val = v := Nat.mod_eq_of_lt (by omega)
  refine .active (rest := bs.drop 3) hmode ?_ rfl ?_
  · change (Fin.ofNat 4 k).val ≤ (Fin.ofNat 4 v).val
    rwa [hcursor, hvalid]
  · change bs.drop k = (b.take (Fin.ofNat 4 v).val).drop (Fin.ofNat 4 k).val ++ bs.drop 3
    rw [hcursor, hvalid, hbytes, ← List.drop_append_of_le_length (by simp; omega), List.take_append_drop]

end

/-! ### Reading it (R202) -/

theorem delivers_cons_exec_decRead {s : State} {b : Byte} {bs : List Byte} (h : Delivers (b :: bs) s) :
    ∃ t, exec .decRead s = .next t ∧ t.phase = .idle ∧ t.code = .ok ∧ t.result = b.setWidth 32 ∧ Delivers bs t := by
  cases h with
  | @active _ _ rest q hmode hcursor hreads hbytes =>
    rcases hcursor.lt_or_eq with hbuffered | hempty
    · rw [Decoder.unreadBytes_of_lt hbuffered, List.cons_append] at hbytes
      obtain ⟨rfl, hlater⟩ := List.cons.inj hbytes
      exact ⟨_, exec_decRead_of_buffered hmode hbuffered, rfl, rfl, rfl,
        .active hmode (Fin.add_one_le_of_lt hbuffered) hreads hlater⟩
    · obtain rfl : b :: bs = rest := by rwa [Decoder.unreadBytes_of_empty hempty] at hbytes
      obtain ⟨g, buf, v, hdecode, htext, htake, hv⟩ := exists_first_group (List.cons_ne_nil b bs)
      rw [htext, chars_append, List.append_assoc] at hreads
      have hfirst : buf.b0 = b := by
        have hpos : 0 < v := (groupDecode_valid_range hdecode).1
        have hhead := congrArg List.head? htake
        simpa [Buf3.take, List.head?_take, hpos.ne'] using hhead
      exact ⟨_, (exec_decRead_of_empty hmode hempty).trans (congrArg _ (pullGroup_read_of_ok hreads hdecode)), rfl, rfl,
        by rw [← hfirst]; rfl, delivers_of_loaded (bs := b :: bs) hmode htake hv (groupDecode_valid_range hdecode).1⟩

theorem endsNow_of_delivers_nil {s : State} (h : Delivers [] s) : EndsNow s := by
  cases h with
  | @active _ _ rest q hmode hcursor hreads hbytes =>
    obtain ⟨hunread, rfl⟩ := List.append_eq_nil_iff.1 hbytes.symm
    have hempty : s.dec.cursor = s.dec.valid := by
      rcases hcursor.lt_or_eq with hbuffered | hempty
      · rw [Decoder.unreadBytes_of_lt hbuffered] at hunread
        cases hunread
      · exact hempty
    exact ⟨_, (exec_decRead_of_empty hmode hempty).trans (congrArg _ (pullGroup_of_eof _ hreads)), rfl, rfl, rfl⟩
  | ended hmode => exact ⟨_, exec_decRead_of_eoi hmode, rfl, rfl, rfl⟩

/-- What the decoder delivers is read one byte per DEC_READ, then END_OF_INPUT. -/
theorem exists_readsAll_of_delivers {s : State} {bs : List Byte} (h : Delivers bs s) :
    ∃ t, ReadsAll bs s t ∧ EndsNow t := by
  induction bs generalizing s with
  | nil => exact ⟨s, .nil s, endsNow_of_delivers_nil h⟩
  | cons b bs ih =>
    obtain ⟨t, hexec, hidle, hok, hresult, ht⟩ := delivers_cons_exec_decRead h
    obtain ⟨u, hreads, hends⟩ := ih ht
    exact ⟨u, .cons hexec hidle hok hresult hreads, hends⟩

/-- Settles O45: a freshly opened decoder delivers the bytes of its source's text. -/
theorem streamReadEquivalence : Obligations.StreamReadEquivalence := fun _ _ _ hfresh hreads =>
  exists_readsAll_of_delivers (delivers_of_empty (by rw [hfresh]) (by rw [hfresh]) hreads)

/-! ### Skipping over it (R212) -/

/-- DEC_SKIP has completed with OK and this count, and the decoder delivers these bytes from here on. -/
structure SkippedTo (count : Nat) (bs : List Byte) (t : State) : Prop where
  idle : t.phase = .idle
  ok : t.code = .ok
  result : t.result = toWord count
  delivers : Delivers bs t

section
variable {s : State} {bs : List Byte} {q : List (Nat × ReadAnswer)} (hmode : s.dec.mode = .active)
include hmode

/-- Step 3 of DEC_SKIP on a text: a group that meets the request, or a short last group and EOF (R211). -/
theorem skipRest_of_text {left : Nat} (total : Nat) (hempty : s.dec.cursor = s.dec.valid)
    (hreads : s.source.readAnswers = chars (encodeText bs) ++ (0, .eof) :: q) (hleft : left < 3) :
    SkippedTo (total + min left bs.length) (bs.drop left) (skipRest total left s) := by
  rcases Nat.eq_zero_or_pos left with rfl | hpos
  · rw [skipRest_zero]
    exact ⟨rfl, rfl, by rw [Nat.zero_min, Nat.add_zero]; rfl,
      delivers_of_empty (s := completed s _ _ _ _) hmode hempty hreads⟩
  rw [skipRest_of_pos hpos]
  by_cases hne : bs = []
  · subst hne
    rw [pullGroup_of_eof _ hreads, List.drop_nil]
    exact ⟨rfl, rfl, by rw [List.length_nil, Nat.min_zero, Nat.add_zero]; rfl, .ended rfl⟩
  obtain ⟨g, buf, v, hdecode, htext, htake, hv⟩ := exists_first_group hne
  rw [htext, chars_append, List.append_assoc] at hreads
  rcases Nat.lt_or_ge v left with hshort | henough
  · have hlast : bs.drop 3 = [] := List.drop_eq_nil_of_le (by omega)
    rw [hlast] at hreads
    rw [pullGroup_skip_of_short total hreads hdecode hshort, pullGroup_of_eof (later := q) _ rfl,
      List.drop_eq_nil_of_le (by omega : bs.length ≤ left)]
    exact ⟨rfl, rfl, by rw [Nat.min_eq_right (by omega), show bs.length = v by omega]; rfl, .ended rfl⟩
  · rw [pullGroup_skip_of_enough total hreads hdecode henough, Nat.min_eq_left (by omega)]
    exact ⟨rfl, rfl, rfl, delivers_of_loaded hmode htake hv henough⟩

/-- With an empty buffer DEC_SKIP starts with the fast path (R206, R207). -/
theorem exec_decSkip_of_empty {n : Nat} (hempty : s.dec.cursor = s.dec.valid) (hn : (n : Int) = s.argInt) :
    exec .decSkip s = skipGroups 0 n s := by
  have hunread : s.dec.unread = 0 := by rw [Decoder.unread, hempty, Nat.sub_self]
  have hcursor : Fin.ofNat 4 (s.dec.cursor.val + 0) = s.dec.cursor := Fin.ofNat_val_eq_self _
  rw [exec_decSkip_of_active hmode hn]
  rcases Nat.eq_zero_or_pos n with rfl | hpos
  · rw [decSkipActive_of_le_unread (Nat.zero_le _), skipGroups_of_lt_three (by decide), skipRest_zero, hcursor, toWord]
  · rw [decSkipActive_of_unread_lt hempty.le (by omega), hunread, Nat.sub_zero, ← hempty]

/-- DEC_SKIP on a text counts 3 bytes for each group the fast path skips, a padded one too, and then the bytes it takes
one by one (R207-R212). -/
theorem exists_skippedTo_of_text {n : Nat} {qs : List (Nat × SkipAnswer)} (hempty : s.dec.cursor = s.dec.valid)
    (hn : (n : Int) = s.argInt)
    (hskips : s.source.skipAnswers =
      (0, .skipped (BitVec.ofNat 32 (min (4 * (n / 3)) (encodeText bs).length))) :: qs)
    (hreads : s.source.readAnswers = chars ((encodeText bs).drop (4 * (n / 3))) ++ (0, .eof) :: q) :
    ∃ t, exec .decSkip s = .next t ∧
      SkippedTo (3 * min (n / 3) ((bs.length + 2) / 3) + min (n % 3) (bs.length - 3 * (n / 3))) (bs.drop n) t := by
  have hsmall : n < 2 ^ 31 := by
    have := BitVec.toInt_lt (x := s.args.arg)
    change (n : Int) = s.args.arg.toInt at hn
    omega
  rw [encodeText_drop] at hreads
  rw [exec_decSkip_of_empty hmode hempty hn]
  rcases Nat.eq_zero_or_pos (n / 3) with hnone | hgroups
  · have hlt : n < 3 := by omega
    rw [hnone] at hreads
    refine ⟨_, skipGroups_of_lt_three hlt, ?_⟩
    have hrest := skipRest_of_text hmode 0 hempty hreads hlt
    rwa [hnone, Nat.mod_eq_of_lt hlt, Nat.zero_min]
  have hanswer : (BitVec.ofNat 32 (min (4 * (n / 3)) (encodeText bs).length)).toNat =
      min (4 * (n / 3)) (encodeText bs).length := Nat.mod_eq_of_lt (by omega)
  rw [skipGroups_of_answer hgroups hskips]
  have hlength := encodeText_length bs
  rcases Nat.lt_or_ge (encodeText bs).length (4 * (n / 3)) with hshort | henough
  · rw [Nat.min_eq_right hshort.le] at hanswer ⊢
    rw [skipAnswered_of_short (by rwa [hanswer]) (by omega), List.drop_eq_nil_of_le (by omega : bs.length ≤ n)]
    refine ⟨_, rfl, rfl, rfl, congrArg toWord ?_, .ended rfl⟩
    omega
  · rw [Nat.min_eq_left henough] at hanswer ⊢
    rw [skipAnswered_of_complete hanswer]
    refine ⟨_, rfl, ?_⟩
    have hrest := skipRest_of_text
      (s := (s.issueSource (.skip (4 * (n / 3)))).withSkipAnswers qs) hmode (0 + 3 * (n / 3)) hempty hreads
      (by omega : n - 3 * (n / 3) < 3)
    rw [List.drop_drop, List.length_drop] at hrest
    convert hrest using 2 <;> omega

end

/-- Settles O49: the count and what is delivered after it, in the two cases of the length. -/
theorem skipCountLaw : Obligations.SkipCountLaw := by
  rintro s bs n G qs q hfresh hn rfl hskips hreads
  obtain ⟨t, hexec, hidle, hok, hresult, hdelivers⟩ :=
    exists_skippedTo_of_text (by rw [hfresh]) (by rw [hfresh]) hn hskips hreads
  have hcount : t.result.toNat =
      3 * min (n / 3) ((bs.length + 2) / 3) + min (n % 3) (bs.length - 3 * (n / 3)) := by
    have := BitVec.toInt_lt (x := s.args.arg)
    rw [hresult]
    exact Nat.mod_eq_of_lt (by omega)
  refine ⟨t, hexec, hidle, hok, fun hcase => ⟨by omega, exists_readsAll_of_delivers hdelivers⟩,
    fun hpadded hall => ⟨by omega, endsNow_of_delivers_nil ?_⟩⟩
  rwa [List.drop_eq_nil_of_le (by omega : bs.length ≤ n)] at hdelivers

end Sys2Proof.Machine
end

section
/-! The control commands (R234). -/

namespace Sys2Proof.Machine

/-- What NOP does to the state, through the shared completion (R234). -/
theorem exec_nop (s : State) : exec .nop s = .next (s.finish .ok 0 0 0) := rfl

/-- Settles O21: NOP is a completion with OK, whose code lets the result stand. -/
theorem nopCompletes : Obligations.NopCompletes := by
  intro s
  rw [exec_nop, State.finish_ok_eq_completed]

end Sys2Proof.Machine
end

section
/-! The two adapters under commands and steps: a command of one family leaves the other family's adapter alone (R69,
R244), and only an OPEN command or reset takes an adapter out of FAILED (R246). -/

namespace Sys2Proof.Claims

open Sys2Proof.Machine

/-- Closing the sink leaves the decoder alone (R176, R244). -/
theorem SinkCloses.dec_eq {sent : Nat} {s u : State} (h : SinkCloses sent s u) : u.dec = s.dec := by
  cases h <;> rfl

/-- Offering characters to the sink leaves the decoder alone (R174, R244). -/
theorem Offers.dec_eq {goal : EmitFor} {c : Byte} {cs : List Byte} {s u : State} (h : Offers goal c cs s u) :
    u.dec = s.dec := by
  induction h with
  | failed | late | wrote => rfl
  | accepted _ _ ih => exact ih
  | flushed _ hclose => exact hclose.dec_eq

/-- Pulling groups from the source leaves the encoder alone (R194, R244). -/
theorem Pulls.enc_eq {goal : PullFor} {got : List Byte} {s u : State} (h : Pulls goal got s u) : u.enc = s.enc := by
  induction h with
  | failed | late | readEnds | skipEnds | cutShort | invalid | readMet | skipMet => rfl
  | character _ _ _ ih => exact ih
  | skipMore _ _ _ _ _ ih => exact ih

/-- Skipping on the source leaves the encoder alone (R204, R244). -/
theorem Skips.enc_eq {asked total left : Nat} {s u : State} (h : Skips asked total left s u) : u.enc = s.enc := by
  cases h with
  | failed | late | cutShort | exhausted | met => rfl
  | pulls _ _ _ hpulls => exact hpulls.enc_eq

end Sys2Proof.Claims

namespace Sys2Proof.Machine

open Sys2Proof.Claims

variable {i : Instr} {s t : State}

/-! ### The encoder's commands leave the decoder alone -/

@[simp] theorem emit_group_dec (goal : EmitFor) (g : TextGroup) (s : State) : (emit goal g.chars s).dec = s.dec :=
  (emit_offers goal [g.c1, g.c2, g.c3] g.c0 s).dec_eq

@[simp] theorem closeSink_dec (sent : Nat) (s : State) : (closeSink sent s).dec = s.dec :=
  (awaitSinkClose_sinkCloses sent s.encEmpty.issueSinkClose).dec_eq

@[simp] theorem encFlush_dec (s : State) : (encFlush s).dec = s.dec := by
  unfold encFlush
  split <;> simp

theorem execEncWrite_dec (h : execEncWrite s = .next t) : t.dec = s.dec := by
  unfold execEncWrite at h
  split at h
  case h_3 =>
    unfold encAppend at h
    split at h <;> cases h <;> simp
  all_goals
    cases h
    rfl

theorem execEncClose_dec (h : execEncClose s = .next t) : t.dec = s.dec := by
  unfold execEncClose at h
  split at h <;> cases h <;> simp

/-! ### The decoder's commands leave the encoder alone -/

@[simp] theorem pullGroup_enc (goal : PullFor) (s : State) : (pullGroup goal s).enc = s.enc :=
  (pullGroup_pulls goal s).enc_eq

@[simp] theorem skipRest_enc (total left : Nat) (s : State) : (skipRest total left s).enc = s.enc := by
  unfold skipRest
  split <;> simp

@[simp] theorem awaitAvail_enc (s : State) : (awaitAvail s).enc = s.enc := by
  unfold awaitAvail
  split
  · rename_i a _ _
    cases a <;> rfl
  · rfl

@[simp] theorem awaitSourceClose_enc (s : State) : (awaitSourceClose s).enc = s.enc := by
  unfold awaitSourceClose
  split
  · rename_i a _ _
    cases a <;> rfl
  · rfl

/-- A wait for SrcSkip that goes on has an answer the source may give, or none yet (U11). -/
theorem skips_of_awaitSkip {asked total left : Nat} (hasked : asked = 4 * (left / 3))
    (h : awaitSkip asked total left s = .next t) : Skips asked total left s t := by
  have admitted : ∀ w q, s.source.skipAnswers = (0, .skipped w) :: q → w.toNat ≤ asked := by
    intro w q hq
    by_contra hlarge
    simp [awaitSkip, hq, readyAnswer, skipAnswered, Nat.lt_of_not_le hlarge] at h
  obtain ⟨u, hu, hskips⟩ := awaitSkip_skips (total := total) hasked admitted
  obtain rfl : u = t := by simpa [hu] using h
  exact hskips

theorem decSkipActive_enc {n : Nat} (h : decSkipActive n s = .next t) : t.enc = s.enc := by
  simp only [decSkipActive, skipGroups] at h
  split at h
  · cases h
    rfl
  · split at h
    · exact (skips_of_awaitSkip rfl h).enc_eq
    · cases h
      simp

theorem execDecRead_enc (h : execDecRead s = .next t) : t.enc = s.enc := by
  unfold execDecRead at h
  split at h
  case h_4 =>
    unfold decReadActive at h
    split at h <;> cases h <;> simp
  all_goals
    cases h
    rfl

theorem execDecSkip_enc (h : execDecSkip s = .next t) : t.enc = s.enc := by
  unfold execDecSkip at h
  split at h
  case h_3 => split at h <;> cases h <;> rfl
  case h_4 =>
    split at h
    · cases h
      rfl
    · exact decSkipActive_enc h
  all_goals
    cases h
    rfl

theorem execDecAvail_enc (h : execDecAvail s = .next t) : t.enc = s.enc := by
  unfold execDecAvail at h
  split at h <;> cases h <;> simp

theorem execDecClose_enc (h : execDecClose s = .next t) : t.enc = s.enc := by
  unfold execDecClose at h
  split at h <;> cases h <;> simp

/-! ### The other commands leave both adapters alone -/

theorem decodeInto_adapters {dst : Region} (h : decodeInto s dst = .next t) : t.enc = s.enc ∧ t.dec = s.dec := by
  unfold decodeInto at h
  split at h <;> cases h <;> exact ⟨rfl, rfl⟩

theorem execEncode_adapters (h : execEncode s = .next t) : t.enc = s.enc ∧ t.dec = s.dec := by
  unfold execEncode at h
  split at h <;> cases h <;> exact ⟨rfl, rfl⟩

theorem execDecode_adapters (h : execDecode s = .next t) : t.enc = s.enc ∧ t.dec = s.dec := by
  unfold execDecode at h
  split at h
  · cases h
    exact ⟨rfl, rfl⟩
  · exact decodeInto_adapters h

theorem execDecodeAlloc_adapters (h : execDecodeAlloc s = .next t) : t.enc = s.enc ∧ t.dec = s.dec := by
  unfold execDecodeAlloc at h
  split at h
  · cases h
    exact ⟨rfl, rfl⟩
  · exact decodeInto_adapters h

theorem execTblAlpha_adapters (h : execTblAlpha s = .next t) : t.enc = s.enc ∧ t.dec = s.dec := by
  unfold execTblAlpha at h
  split at h <;> cases h <;> exact ⟨rfl, rfl⟩

theorem execTblInv_adapters (h : execTblInv s = .next t) : t.enc = s.enc ∧ t.dec = s.dec := by
  unfold execTblInv at h
  split at h <;> cases h <;> exact ⟨rfl, rfl⟩

/-! ### The command families (R69, R244) -/

theorem exec_dec_of_encoder (hi : i ∈ [Instr.encOpen, .encWrite, .encClose]) (h : exec i s = .next t) :
    t.dec = s.dec := by
  cases i with
  | encOpen =>
    cases h
    rfl
  | encWrite => exact execEncWrite_dec h
  | encClose => exact execEncClose_dec h
  | _ => simp at hi

theorem exec_enc_of_decoder (hi : i ∈ [Instr.decOpen, .decRead, .decSkip, .decAvail, .decClose])
    (h : exec i s = .next t) : t.enc = s.enc := by
  cases i with
  | decOpen =>
    cases h
    rfl
  | decRead => exact execDecRead_enc h
  | decSkip => exact execDecSkip_enc h
  | decAvail => exact execDecAvail_enc h
  | decClose => exact execDecClose_enc h
  | _ => simp at hi

theorem exec_adapters_of_other (hi : i ∈ [Instr.nop, .encode, .decode, .decodeAlloc, .validate, .tblAlpha, .tblInv])
    (h : exec i s = .next t) : t.enc = s.enc ∧ t.dec = s.dec := by
  cases i with
  | nop | validate =>
    cases h
    exact ⟨rfl, rfl⟩
  | encode => exact execEncode_adapters h
  | decode => exact execDecode_adapters h
  | decodeAlloc => exact execDecodeAlloc_adapters h
  | tblAlpha => exact execTblAlpha_adapters h
  | tblInv => exact execTblInv_adapters h
  | _ => simp at hi

/-! ### A command on a failed adapter (R246) -/

/-- A data command of a failed encoder completes with its latch and does nothing else. -/
theorem exec_of_failed_enc (hfailed : s.enc.mode = .failed) (hi : i ∈ [Instr.encWrite, .encClose]) :
    exec i s = .next (completed s s.enc.latch.code 0 s.enc.latch.info0 s.enc.latch.info1) := by
  cases i with
  | encWrite => exact exec_encWrite_of_failed hfailed
  | encClose => exact exec_encClose_of_failed hfailed
  | _ => simp at hi

/-- A data command of a failed decoder completes with its latch and does nothing else. -/
theorem exec_of_failed_dec (hfailed : s.dec.mode = .failed) (hi : i ∈ [Instr.decRead, .decSkip, .decAvail, .decClose]) :
    exec i s = .next (completed s s.dec.latch.code 0 s.dec.latch.info0 s.dec.latch.info1) := by
  cases i with
  | decRead => exact exec_decRead_of_failed hfailed
  | decSkip => exact exec_decSkip_of_failed hfailed
  | decAvail => exact exec_decAvail_of_failed hfailed
  | decClose => exact exec_decClose_of_failed hfailed
  | _ => simp at hi

/-- Of all commands only ENC_OPEN changes a failed encoder. -/
theorem exec_enc_of_failed (hfailed : s.enc.mode = .failed) (h : exec i s = .next t) :
    t.enc = s.enc ∨ t.enc = .fresh ∧ i = .encOpen := by
  cases i with
  | encOpen =>
    cases h
    exact .inr ⟨rfl, rfl⟩
  | encWrite | encClose =>
    rw [exec_of_failed_enc hfailed (by simp)] at h
    cases h
    exact .inl rfl
  | decOpen | decRead | decSkip | decAvail | decClose => exact .inl (exec_enc_of_decoder (by simp) h)
  | nop | encode | decode | decodeAlloc | validate | tblAlpha | tblInv =>
    exact .inl (exec_adapters_of_other (by simp) h).1

/-- Of all commands only DEC_OPEN changes a failed decoder. -/
theorem exec_dec_of_failed (hfailed : s.dec.mode = .failed) (h : exec i s = .next t) :
    t.dec = s.dec ∨ t.dec = .fresh ∧ i = .decOpen := by
  cases i with
  | decOpen =>
    cases h
    exact .inr ⟨rfl, rfl⟩
  | decRead | decSkip | decAvail | decClose =>
    rw [exec_of_failed_dec hfailed (by simp)] at h
    cases h
    exact .inl rfl
  | encOpen | encWrite | encClose => exact .inl (exec_dec_of_encoder (by simp) h)
  | nop | encode | decode | decodeAlloc | validate | tblAlpha | tblInv =>
    exact .inl (exec_adapters_of_other (by simp) h).2

/-! ### What the engine can do to the adapters -/

/-- What a move of the engine from adapters `e` and `d` can do to them: nothing, the command of an issued word, or the
effect of an answer on the adapter that waits for it, which is in a mode that issues requests (R174, R194). -/
inductive AdaptersMove (issued : Word → Prop) (e : Encoder) (d : Decoder) (t : State) : Prop where
  | kept : t.enc = e → t.dec = d → AdaptersMove issued e d t
  | ran {i : Instr} {u : State} : issued (encode i) → u.enc = e → u.dec = d → exec i u = .next t →
      AdaptersMove issued e d t
  | sinkAnswered : e.mode = .opened → t.dec = d → AdaptersMove issued e d t
  | sourceAnswered : d.mode = .active ∨ d.mode = .eoi → t.enc = e → AdaptersMove issued e d t

section
variable {issued : Word → Prop}

/-- A failed encoder is changed by ENC_OPEN alone. -/
theorem AdaptersMove.enc_of_failed {e : Encoder} {d : Decoder} (h : AdaptersMove issued e d t)
    (hfailed : e.mode = .failed) : t.enc = e ∨ t.enc = .fresh ∧ issued (encode .encOpen) := by
  cases h with
  | kept henc _ => exact .inl henc
  | ran hissued henc _ hexec =>
    subst henc
    refine (exec_enc_of_failed hfailed hexec).imp_right ?_
    rintro ⟨hfresh, rfl⟩
    exact ⟨hfresh, hissued⟩
  | sinkAnswered hopened _ => simp [hfailed] at hopened
  | sourceAnswered _ henc => exact .inl henc

/-- A failed decoder is changed by DEC_OPEN alone. -/
theorem AdaptersMove.dec_of_failed {e : Encoder} {d : Decoder} (h : AdaptersMove issued e d t)
    (hfailed : d.mode = .failed) : t.dec = d ∨ t.dec = .fresh ∧ issued (encode .decOpen) := by
  cases h with
  | kept _ hdec => exact .inl hdec
  | ran hissued _ hdec hexec =>
    subst hdec
    refine (exec_dec_of_failed hfailed hexec).imp_right ?_
    rintro ⟨hfresh, rfl⟩
    exact ⟨hfresh, hissued⟩
  | sinkAnswered _ hdec => exact .inl hdec
  | sourceAnswered hmode _ => simp [hfailed] at hmode

theorem runCommand_adaptersMove {w : Word} (hissued : issued w) (h : runCommand w s = .next t) :
    AdaptersMove issued s.enc s.dec t := by
  unfold runCommand at h
  split at h
  · rename_i i hdecode
    obtain rfl := (decode_ok_iff w i).1 hdecode
    exact .ran hissued rfl rfl h
  · cases h
    exact .kept rfl rfl

/-- An accepted word runs at once, or waits for its latency to run out (R230, assumption 4). -/
theorem startCommand_adaptersMove {w : Word} (hissued : issued w) (h : startCommand w s = .next t) :
    AdaptersMove issued s.enc s.dec t := by
  unfold startCommand at h
  split at h
  · exact (runCommand_adaptersMove hissued h :)
  · exact (runCommand_adaptersMove hissued h :)
  · cases h
    exact .kept rfl rfl

theorem runAccepted_adaptersMove {dst : Region} {broken : Bool} (hissued : ∀ w, s.cmdWord = some w → issued w)
    (h : runAccepted dst broken s = .next t) : AdaptersMove issued s.enc s.dec t := by
  unfold runAccepted at h
  split at h
  · cases h
    exact .kept rfl rfl
  · split at h
    · rename_i w hword
      exact (runCommand_adaptersMove (hissued w hword) h :)
    · cases h
      exact .kept rfl rfl

/-- The engine's move: the latched word runs, or the answer it waits for reaches one adapter (R283). -/
theorem tick_adaptersMove (hwf : Phase.wf s) (hissued : ∀ w, s.cmdWord = some w → issued w) (h : tick s = .next t) :
    AdaptersMove issued s.enc s.dec t := by
  unfold Phase.wf at hwf
  unfold tick at h
  cases hphase : s.phase with
  | idle | running =>
    simp only [hphase] at h
    cases h
    exact .kept rfl rfl
  | accepted n src dst broken =>
    simp only [hphase] at h
    split at h
    · exact runAccepted_adaptersMove hissued h
    · cases h
      exact .kept rfl rfl
  | putting c rest goal =>
    simp only [hphase] at h hwf
    obtain ⟨-, hopened, -⟩ := hwf
    cases h
    exact .sinkAnswered hopened (awaitPut_offers (s := s.withPutAnswers (elapse s.sink.putAnswers)) hphase).dec_eq
  | closingSink sent =>
    simp only [hphase] at h hwf
    obtain ⟨-, hopened, -⟩ := hwf
    cases h
    exact .sinkAnswered hopened (awaitSinkClose_sinkCloses sent (s.withSinkCloseAnswers _)).dec_eq
  | pulling got goal =>
    simp only [hphase] at h hwf
    obtain ⟨-, hactive, hgot, -⟩ := hwf
    cases h
    exact .sourceAnswered (.inl hactive) (pullOn_pulls _ got goal s hgot).enc_eq
  | skipping chars total left =>
    simp only [hphase] at h hwf
    obtain ⟨-, hactive, -, hchars⟩ := hwf
    exact .sourceAnswered (.inl hactive) (skips_of_awaitSkip hchars h).enc_eq
  | availing =>
    simp only [hphase] at h hwf
    obtain ⟨-, hactive⟩ := hwf
    cases h
    exact .sourceAnswered (.inl hactive) (awaitAvail_enc _)
  | closingSource =>
    simp only [hphase] at h hwf
    obtain ⟨-, hmode⟩ := hwf
    cases h
    exact .sourceAnswered hmode (awaitSourceClose_enc _)

end

/-! ### What an input can do to the adapters -/

/-- The host's access starts no command: the adapters and the latched word stay, and the phase still fits them. -/
structure HostFrame (s t : State) : Prop where
  enc : t.enc = s.enc
  dec : t.dec = s.dec
  cmdWord : t.cmdWord = s.cmdWord
  phaseWf : Phase.wf s → Phase.wf t

theorem HostFrame.refl (s : State) : HostFrame s s := ⟨rfl, rfl, rfl, id⟩

theorem HostFrame.trans {u : State} (hst : HostFrame s t) (htu : HostFrame t u) : HostFrame s u :=
  ⟨htu.enc.trans hst.enc, htu.dec.trans hst.dec, htu.cmdWord.trans hst.cmdWord, htu.phaseWf ∘ hst.phaseWf⟩

theorem HostFrame.reply (h : HostFrame s t) (r : HostReply) : HostFrame s (t.reply r) :=
  h.trans ⟨rfl, rfl, rfl, id⟩

/-- Whether the duty was broken is no part of what a phase must fit (R62). -/
theorem hostFrame_breakDuty (s : State) (touches : Region → Region → Bool) : HostFrame s (s.breakDuty touches) := by
  unfold State.breakDuty
  split
  · rename_i hphase
    exact ⟨rfl, rfl, rfl, fun hwf => by simpa only [Phase.wf, hphase] using hwf⟩
  · exact .refl s

theorem hostFrame_readWhenIdle (value mask : Word) (s : State) : HostFrame s (readWhenIdle value mask s).2 := by
  unfold readWhenIdle
  split <;> exact ⟨rfl, rfl, rfl, id⟩

theorem hostFrame_readStatus (s : State) : HostFrame s (readStatus s).2 := by
  unfold readStatus
  split <;> exact ⟨rfl, rfl, rfl, id⟩

theorem hostFrame_readOffset (off : Nat) (s : State) : HostFrame s (readOffset off s).2 := by
  unfold readOffset
  split
  · rename_i n _
    cases n with
    | status => exact hostFrame_readStatus s
    | result | info0 | info1 | encState | decState | decBuf => exact hostFrame_readWhenIdle _ _ s
    | _ => exact .refl s
  · exact .refl s

theorem hostFrame_writeRegister (n : Option CsrName) (v : Word) (s : State) : HostFrame s (writeRegister n v s) := by
  unfold writeRegister
  split
  · split <;> exact ⟨rfl, rfl, rfl, id⟩
  · exact .refl s

theorem hostFrame_hostWait (s : State) : HostFrame s (hostWait s) := by
  have hreply := (hostFrame_readStatus s).reply (.csr (csrOffset .status) (readStatus s).1)
  unfold hostWait
  split
  · exact hreply.trans ⟨rfl, rfl, rfl, id⟩
  · exact hreply

theorem hostFrame_of_hostCsrRead {addr : Nat} {width : AccessWidth} (h : hostCsrRead addr width s = .next t) :
    HostFrame s t := by
  unfold hostCsrRead at h
  split at h
  · cases h
    exact .refl s
  · split at h <;> cases h
    exact (hostFrame_readOffset _ s).reply _

theorem hostFrame_of_hostDmemWrite {addr : Nat} {v : Byte} (h : hostDmemWrite addr v s = .next t) :
    HostFrame s t := by
  unfold hostDmemWrite at h
  split at h <;> cases h
  have hstored : HostFrame s { s with dmem := Memory.write s.dmem addr v } := ⟨rfl, rfl, rfl, id⟩
  exact hstored.trans (hostFrame_breakDuty _ _)

theorem hostFrame_of_hostDmemRead {addr : Nat} (h : hostDmemRead addr s = .next t) : HostFrame s t := by
  have hdrawn : HostFrame s { s with draws := s.draws + 1 } := ⟨rfl, rfl, rfl, id⟩
  unfold hostDmemRead at h
  split at h
  · split at h <;> cases h
    · exact (hdrawn.trans (hostFrame_breakDuty _ _)).reply _
    · exact (HostFrame.refl s).reply _
  · cases h

theorem csrOffset_of_csrAt {off : Nat} {n : CsrName} (h : csrAt off = some n) : csrOffset n = off := by
  simpa using List.find?_some h

/-- A host write of the window starts a command when it writes CMD of an IDLE engine, and otherwise leaves the adapters
alone (R23, R231). -/
theorem hostCsrWrite_cases {addr : Nat} {width : AccessWidth} {v : Word} (h : hostCsrWrite addr width v s = .next t) :
    HostFrame s t ∨
      addr = s.params.csrBase + csrOffset .cmd ∧ width = .word ∧ s.busy = false ∧ startCommand v s = .next t := by
  unfold hostCsrWrite at h
  split at h
  · cases h
    exact .inl (.refl s)
  split at h
  · cases h
  rename_i haligned
  obtain ⟨hwidth, hbase, -⟩ := (alignedAccess_iff s.params addr width).1 (by simpa using haligned)
  unfold writeOffset at h
  split at h
  · rename_i hcmd
    unfold writeCmd at h
    split at h
    · cases h
      exact .inl ⟨rfl, rfl, rfl, id⟩
    · rename_i hidle
      exact .inr ⟨by rw [csrOffset_of_csrAt hcmd, Nat.add_sub_cancel' hbase], hwidth, by simpa using hidle, h⟩
  · cases h
    exact .inl (hostFrame_writeRegister _ _ s)

/-- What an input other than reset can do: it leaves the adapters alone, or it is a CMD write that starts a command. -/
theorem takeInput_cases {x : Input} (hx : x ≠ .reset) (h : takeInput x s = .next t) :
    HostFrame s t ∨
      ∃ w, x = .csrWrite (s.params.csrBase + csrOffset .cmd) .word w ∧ s.busy = false ∧ startCommand w s = .next t := by
  cases x with
  | csrWrite addr width v =>
    refine (hostCsrWrite_cases h).imp_right ?_
    rintro ⟨rfl, rfl, hidle, hstart⟩
    exact ⟨v, rfl, hidle, hstart⟩
  | csrRead addr width => exact .inl (hostFrame_of_hostCsrRead h)
  | dmemWrite addr v => exact .inl (hostFrame_of_hostDmemWrite h)
  | dmemRead addr => exact .inl (hostFrame_of_hostDmemRead h)
  | wait =>
    cases h
    exact .inl (hostFrame_hostWait s)
  | reset => exact absurd rfl hx

/-! ### Steps -/

/-- The command word is latched, or the host writes it to CMD next. -/
def Issued (s : State) (w : Word) : Prop := s.cmdWord = some w ∨ ∃ rest, writes s .cmd w rest

/-- After an input that started no command, the engine moves on if it was running (R22). -/
theorem advance_adaptersMove {u : State} {wasBusy : Bool} (hwf : Phase.wf s) (hframe : HostFrame s u)
    (h : advance wasBusy (.next u) = .next t) : AdaptersMove (Issued s) s.enc s.dec t := by
  simp only [advance] at h
  split at h
  · rw [← hframe.enc, ← hframe.dec]
    exact tick_adaptersMove (hframe.phaseWf hwf) (fun w hword => .inl (hframe.cmdWord ▸ hword)) h
  · cases h
    exact .kept hframe.enc hframe.dec

/-- Reset gives both adapters their reset state, and no command moves them on (R270, R272). -/
theorem step_adapters_of_reset (hreset : s.inputs.head? = some .reset) (h : step s = .next t) :
    t.enc = .fresh ∧ t.dec = .fresh := by
  obtain ⟨rest, hinputs⟩ := List.head?_eq_some_iff.1 hreset
  simp only [step, handleInput, hinputs, takeInput, advance] at h
  split at h <;> cases h <;> exact ⟨rfl, rfl⟩

/-- What a step without reset can do to the adapters. -/
theorem step_adaptersMove (hwf : Phase.wf s) (hreset : s.inputs.head? ≠ some .reset) (h : step s = .next t) :
    AdaptersMove (Issued s) s.enc s.dec t := by
  unfold step handleInput at h
  split at h
  · exact advance_adaptersMove hwf (.refl s) h
  rename_i x rest hinputs
  have hx : x ≠ .reset := by
    rintro rfl
    exact hreset (by rw [hinputs, List.head?_cons])
  cases htake : takeInput x { s with inputs := rest } with
  | fault | refused =>
    rw [htake] at h
    cases h
  | next u =>
    rw [htake] at h
    rcases takeInput_cases hx htake with hframe | ⟨w, rfl, hidle, hstart⟩
    · have htaken : HostFrame s { s with inputs := rest } := ⟨rfl, rfl, rfl, id⟩
      exact advance_adaptersMove hwf (htaken.trans hframe) h
    · rw [show s.busy = false from hidle] at h
      cases h
      exact startCommand_adaptersMove (s := { s with inputs := rest }) (.inr ⟨rest, hinputs⟩) hstart

/-- Settles O56: a data command re-reports the latch; a step is a reset or a move of the engine, and of its moves only
the OPEN command's reaches a failed adapter. -/
theorem failedAdaptersReReportUntilOpened : Obligations.FailedAdaptersReReportUntilOpened := by
  refine ⟨fun i s => ⟨exec_of_failed_enc, exec_of_failed_dec⟩, fun s t hinv h => ?_⟩
  by_cases hreset : s.inputs.head? = some .reset
  · obtain ⟨henc, hdec⟩ := step_adapters_of_reset hreset h
    exact ⟨fun _ => .inr ⟨henc, .inr (.inl hreset)⟩, fun _ => .inr ⟨hdec, .inr (.inl hreset)⟩⟩
  · have hmove := step_adaptersMove hinv.phaseWf hreset h
    refine ⟨fun hfailed => (hmove.enc_of_failed hfailed).imp_right ?_,
      fun hfailed => (hmove.dec_of_failed hfailed).imp_right ?_⟩
    · exact fun ⟨hfresh, hissued⟩ => ⟨hfresh, hissued.imp_right .inr⟩
    · exact fun ⟨hfresh, hissued⟩ => ⟨hfresh, hissued.imp_right .inr⟩

end Sys2Proof.Machine
end

section
/-! The invariant of the machine: every command, every move of the engine and every access of the host keeps it (R41,
R43, R45, R47, R50). -/

namespace Sys2Proof.Machine

open Sys2Proof.Claims

variable {s t : State}

/-! ### The adapters' invariants in the words proofs use -/

theorem Encoder.wf_iff (e : Encoder) :
    e.wf = true ↔ e.fill.val ≤ 2 ∧ (e.fill.val = 0 ∨ e.mode = .opened) ∧ (1 ≤ e.fill.val ∨ e.hb.b0 = 0) ∧
      (2 ≤ e.fill.val ∨ e.hb.b1 = 0) ∧ e.hb.b2 = 0 := by
  simp [Encoder.wf, and_assoc]

theorem Decoder.wf_iff (d : Decoder) :
    d.wf = true ↔ d.cursor.val ≤ d.valid.val ∧ (d.valid.val = 0 ∨ d.mode = .active) ∧
      (1 ≤ d.valid.val ∨ d.buf.b0 = 0) ∧ (2 ≤ d.valid.val ∨ d.buf.b1 = 0) ∧ (3 ≤ d.valid.val ∨ d.buf.b2 = 0) := by
  simp [Decoder.wf, and_assoc]

theorem Sound.withEnc (h : Sound s) {e : Encoder} (hlatch : e.latchWf = true) : Sound { s with enc := e } :=
  ⟨h.params, h.dmemWf, h.dmemInside, hlatch, h.decWf, h.decLatch⟩

theorem Sound.withDec (h : Sound s) {d : Decoder} (hwf : d.wf = true) (hlatch : d.latchWf = true) :
    Sound { s with dec := d } :=
  ⟨h.params, h.dmemWf, h.dmemInside, h.encLatch, hwf, hlatch⟩

/-- Moving the cursor within the buffer keeps R45. -/
theorem Sound.withCursor (h : Sound s) {k : Fin 4} (hk : k.val ≤ s.dec.valid.val) :
    Sound { s with dec := { s.dec with cursor := k } } := by
  obtain ⟨-, hrest⟩ := (Decoder.wf_iff _).1 h.decWf
  exact h.withDec ((Decoder.wf_iff _).2 ⟨hk, hrest⟩) h.decLatch

/-- A region in DMEM can be filled by as many bytes as it has (R56). -/
theorem Region.fits_of_inDmem {r : Region} {size : Nat} {vs : List Byte} (h : r.inDmem size = true)
    (hlen : vs.length = r.len) : vs = [] ∨ r.start + vs.length ≤ size := by
  simp only [Region.inDmem, Bool.or_eq_true, beq_iff_eq, decide_eq_true_eq] at h
  rw [← List.length_eq_zero_iff, hlen]
  exact h

theorem Sound.scramble (h : Sound s) {r : Region} (hr : r.inDmem s.params.dmemSize = true) : Sound (s.scramble r) :=
  h.stored _ _ (Region.fits_of_inDmem hr (freeBytes_length _ _)) _

/-! ### Every command -/

section
variable {i : Instr}

theorem Ready.raise (h : Ready i s) (c : Code) (i0 i1 : Word) : MachineInv (s.raise c i0 i1) := h.finish _ _ _ _

theorem execEncode_inv (h : Ready i s) (e : execEncode s = .next t) : MachineInv t := by
  unfold execEncode at e
  split at e <;> cases e
  case h_1 => exact h.raise _ _ _
  case h_2 hchecks =>
    obtain ⟨-, -, hdst, -⟩ := (encodeError_eq_none_iff s).1 hchecks
    rw [← Region.inDmem_iff, ← encodeDst_eq] at hdst
    exact (h.stored _ _ (Region.fits_of_inDmem hdst (encodeText_srcBytes_length s)) s.draws).finish h.encWf _ _ _ _

/-- The shared end of DECODE and DECODE_ALLOC, with the destination in DMEM (R143, R144). -/
theorem decodeInto_inv {dst : Region} (h : Ready i s) (h4 : s.srcCnt % 4 = 0) (hlen : dst.len = decodedN s)
    (hdst : dst.inDmem s.params.dmemSize = true) (e : decodeInto s dst = .next t) : MachineInv t := by
  unfold decodeInto at e
  split at e <;> cases e
  case h_1 => exact (h.scramble hdst).finish h.encWf _ _ _ _
  case h_2 bytes htext =>
    have hfill : bytes.length = dst.len := by rw [hlen, decodeText_src_length s h4 htext]
    exact (h.stored _ _ (Region.fits_of_inDmem hdst hfill) s.draws).finish h.encWf _ _ _ _

theorem execDecode_inv (h : Ready i s) (e : execDecode s = .next t) : MachineInv t := by
  unfold execDecode at e
  split at e
  case h_1 =>
    cases e
    exact h.raise _ _ _
  case h_2 hchecks =>
    obtain ⟨h4, -, -, -, -, hdst, -⟩ := (decodeError_eq_none_iff s).1 hchecks
    exact decodeInto_inv h h4 rfl ((Region.inDmem_iff _ _ _).2 hdst) e

theorem execDecodeAlloc_inv (h : Ready i s) (e : execDecodeAlloc s = .next t) : MachineInv t := by
  unfold execDecodeAlloc at e
  split at e
  case h_1 =>
    cases e
    exact h.raise _ _ _
  case h_2 hchecks =>
    obtain ⟨h4, -, -, hdst, -⟩ := (decodeAllocError_eq_none_iff s).1 hchecks
    exact decodeInto_inv h h4 rfl ((Region.inDmem_iff _ _ _).2 hdst) e

theorem execTblAlpha_inv (h : Ready i s) (e : execTblAlpha s = .next t) : MachineInv t := by
  unfold execTblAlpha at e
  split at e <;> cases e
  · exact h.raise _ _ _
  · exact h.finish _ _ _ _

theorem execTblInv_inv (h : Ready i s) (e : execTblInv s = .next t) : MachineInv t := by
  unfold execTblInv at e
  split at e <;> cases e <;> exact h.finish _ _ _ _

end

/-- ENC_OPEN and DEC_OPEN put their adapter in a reset state, which meets its invariant (R172, R195). -/
theorem execEncOpen_inv (h : Ready .encOpen s) : MachineInv (State.finish { s with enc := .fresh } .ok 0 0 0) :=
  (h.withEnc (e := .fresh) rfl).finish rfl _ _ _ _

theorem execDecOpen_inv (h : Ready .decOpen s) : MachineInv (State.finish { s with dec := .fresh } .ok 0 0 0) :=
  (h.withDec (d := .fresh) rfl rfl).finish h.encWf _ _ _ _

/-- The first and second byte of a group are held; the third is offered with them (R41, R173). -/
theorem encAppend_inv (h : Ready .encWrite s) (hopen : s.enc.mode = .opened) (e : encAppend s = .next t) :
    MachineInv t := by
  obtain ⟨-, -, -, hb1, hb2⟩ := (Encoder.wf_iff _).1 h.encWf
  have hheld : ∀ fill hb, Sound { s with enc := { s.enc with fill := fill, hb := hb } } :=
    fun fill hb => h.withEnc (e := { s.enc with fill := fill, hb := hb }) h.encLatch
  unfold encAppend at e
  split at e <;> cases e
  case h_1 hfill =>
    have hb1 : s.enc.hb.b1 = 0 := hb1.resolve_left (by simp [hfill])
    refine (hheld 1 _).finish ((Encoder.wf_iff _).2 ?_) _ _ _ _
    exact ⟨by simp, .inr hopen, .inl (by simp), .inr hb1, hb2⟩
  case h_2 hfill =>
    refine (hheld 2 _).finish ((Encoder.wf_iff _).2 ?_) _ _ _ _
    exact ⟨by simp, .inr hopen, .inl (by simp), .inl (by simp), hb2⟩
  case h_3 => exact emit_inv .write _ _ (hheld 3 _) h.word h.done hopen (pack3_sinkChar _ _ _) le_rfl

theorem execEncWrite_inv (h : Ready .encWrite s) (e : execEncWrite s = .next t) : MachineInv t := by
  unfold execEncWrite at e
  split at e
  case h_3 hopen => exact encAppend_inv h hopen e
  all_goals
    cases e
    exact h.raise _ _ _

theorem encFlush_inv (h : Ready .encClose s) (hopen : s.enc.mode = .opened) : MachineInv (encFlush s) := by
  unfold encFlush
  split
  · exact emit_inv .close _ s h.toSound h.word h.done hopen (pack1_sinkChar _) le_rfl
  · exact emit_inv .close _ s h.toSound h.word h.done hopen (pack2_sinkChar _ _) le_rfl
  · exact closeSink_inv h.toSound 0 h.word h.done hopen
  · exact closeSink_inv h.toSound 0 h.word h.done hopen

theorem execEncClose_inv (h : Ready .encClose s) (e : execEncClose s = .next t) : MachineInv t := by
  unfold execEncClose at e
  split at e <;> cases e
  case h_1 => exact h.finish _ _ _ _
  case h_2 => exact h.raise _ _ _
  case h_3 hopen => exact encFlush_inv h hopen

theorem decReadActive_inv (h : Ready .decRead s) (hactive : s.dec.mode = .active) : MachineInv (decReadActive s) := by
  unfold decReadActive
  split
  case isTrue hbuffered =>
    have hnext : (s.dec.cursor + 1).val ≤ s.dec.valid.val := Fin.add_one_le_of_lt hbuffered
    exact (h.withCursor hnext).finish h.encWf _ _ _ _
  case isFalse => exact pullGroup_inv .read h.toSound h.encWf h.word h.done hactive rfl

theorem execDecRead_inv (h : Ready .decRead s) (e : execDecRead s = .next t) : MachineInv t := by
  unfold execDecRead at e
  split at e <;> cases e
  case h_4 hactive => exact decReadActive_inv h hactive
  case h_3 => exact h.finish _ _ _ _
  all_goals exact h.raise _ _ _

/-- Steps 2 and 3 of DEC_SKIP (R204). -/
theorem skipGroups_inv {total left : Nat} (h : Ready .decSkip s) (hactive : s.dec.mode = .active)
    (e : skipGroups total left s = .next t) : MachineInv t := by
  unfold skipGroups at e
  split at e
  case isTrue hgroups =>
    exact awaitSkip_inv (s := s.issueSource _) _ total left (h.source _) h.encWf h.word h.done hactive hgroups rfl e
  case isFalse hfew =>
    cases e
    exact skipRest_inv total left h.toSound h.encWf h.word h.done hactive (by omega)

/-- The cursor that DEC_SKIP moves past `k` of the unread bytes stays within them (R206). -/
theorem cursor_advance_le {d : Decoder} (hd : d.cursor.val ≤ d.valid.val) {k : Nat} (hk : k ≤ d.unread) :
    (Fin.ofNat 4 (d.cursor.val + k)).val ≤ d.valid.val := by
  have hvalid := d.valid.isLt
  unfold Decoder.unread at hk
  exact (Nat.mod_le _ _).trans (by omega)

theorem decSkipActive_inv {n : Nat} (h : Ready .decSkip s) (hactive : s.dec.mode = .active)
    (e : decSkipActive n s = .next t) : MachineInv t := by
  obtain ⟨hcursor, -⟩ := (Decoder.wf_iff _).1 h.decWf
  have hmoved := h.withCursor (cursor_advance_le hcursor (Nat.min_le_right n s.dec.unread))
  simp only [decSkipActive] at e
  split at e
  · cases e
    exact hmoved.finish h.encWf _ _ _ _
  · exact skipGroups_inv ⟨hmoved, h.encWf, h.word, h.done⟩ hactive e

theorem execDecSkip_inv (h : Ready .decSkip s) (e : execDecSkip s = .next t) : MachineInv t := by
  unfold execDecSkip at e
  split at e
  case h_3 => split at e <;> cases e <;> exact h.finish _ _ _ _
  case h_4 hactive =>
    split at e
    · cases e
      exact h.finish _ _ _ _
    · exact decSkipActive_inv h hactive e
  all_goals
    cases e
    exact h.raise _ _ _

theorem execDecAvail_inv (h : Ready .decAvail s) (e : execDecAvail s = .next t) : MachineInv t := by
  unfold execDecAvail at e
  split at e <;> cases e
  case h_4 hactive => exact awaitAvail_inv (s := s.issueSource .avail) (h.source _) h.encWf h.word h.done hactive
  case h_3 => exact h.finish _ _ _ _
  all_goals exact h.raise _ _ _

theorem execDecClose_inv (h : Ready .decClose s) (e : execDecClose s = .next t) : MachineInv t := by
  unfold execDecClose at e
  split at e <;> cases e
  case h_1 => exact h.finish _ _ _ _
  case h_2 => exact h.raise _ _ _
  case h_3 heoi => exact awaitSourceClose_inv (h.source _) h.encWf h.word h.done (.inr heoi)
  case h_4 hactive => exact awaitSourceClose_inv (h.source _) h.encWf h.word h.done (.inl hactive)

/-- From a state in which it is ready to execute, every command leaves the invariant. -/
theorem exec_inv {i : Instr} (h : Ready i s) (e : exec i s = .next t) : MachineInv t := by
  cases i with
  | nop | validate =>
    cases e
    exact h.finish _ _ _ _
  | encode => exact execEncode_inv h e
  | decode => exact execDecode_inv h e
  | decodeAlloc => exact execDecodeAlloc_inv h e
  | tblAlpha => exact execTblAlpha_inv h e
  | tblInv => exact execTblInv_inv h e
  | encOpen =>
    cases e
    exact execEncOpen_inv h
  | encWrite => exact execEncWrite_inv h e
  | encClose => exact execEncClose_inv h e
  | decOpen =>
    cases e
    exact execDecOpen_inv h
  | decRead => exact execDecRead_inv h e
  | decSkip => exact execDecSkip_inv h e
  | decAvail => exact execDecAvail_inv h e
  | decClose => exact execDecClose_inv h e

/-! ### The engine -/

theorem busy_eq_true_iff (s : State) : s.busy = true ↔ s.phase ≠ .idle := by
  unfold State.busy
  split <;> simp_all

/-- A latched word executes, legal or illegal (R230, R235). -/
theorem runCommand_inv {w : Word} (h : Sound s) (henc : s.enc.wf = true) (hword : s.cmdWord = some w)
    (hdone : s.done = false) (e : runCommand w s = .next t) : MachineInv t := by
  unfold runCommand at e
  split at e
  · rename_i i hdecode
    obtain rfl := (decode_ok_iff w i).1 hdecode
    exact exec_inv ⟨h, henc, hword, hdone⟩ e
  · cases e
    exact h.finish henc _ _ _ _

theorem MachineInv.encWf_of_idle (h : MachineInv s) (hidle : s.busy = false) : s.enc.wf = true := by
  have hphase : s.phase = .idle := by
    by_contra hne
    rw [(busy_eq_true_iff s).2 hne] at hidle
    cases hidle
  exact h.encWf (by rw [hphase]; rfl)

/-- Acceptance of a word: it executes at once, or its regions are guarded until its latency has run out (R230, R62). -/
theorem startCommand_inv {w : Word} (h : MachineInv s) (hidle : s.busy = false) (e : startCommand w s = .next t) :
    MachineInv t := by
  have haccepted : ∀ later, Sound { s.accept w with latency := later } :=
    fun _ => h.sound.eqv ⟨rfl, rfl, rfl, rfl⟩
  have henc := h.encWf_of_idle hidle
  unfold startCommand at e
  split at e
  · exact runCommand_inv (haccepted s.latency) henc rfl rfl e
  · exact runCommand_inv (haccepted _) henc rfl rfl e
  · rename_i n later _
    cases e
    exact (haccepted later).wait (.accepted (n + 1) (wordSrc w s) (wordDst w s) false) rfl rfl (by simp) (.inr henc)
      ⟨Nat.le_add_left _ _, wordSrc_inDmem w s, wordDst_inDmem w s⟩

/-- Completion with free values, the destination in DMEM (R62). -/
theorem finishUnspecified_inv {dst : Region} (h : Sound s) (henc : s.enc.wf = true)
    (hdst : dst.inDmem s.params.dmemSize = true) : MachineInv (s.finishUnspecified dst) where
  params := h.params
  dmemWf := (h.scramble hdst).dmemWf
  dmemInside := (h.scramble hdst).dmemInside
  latched := rfl
  notDone := by simp [State.busy, State.finishUnspecified]
  encWf := fun _ => henc
  encLatch := h.encLatch
  decWf := h.decWf
  decLatch := h.decLatch
  phaseWf := trivial

/-- Waiting for SinkClose (R176, R283). -/
theorem awaitSinkClose_inv {sent : Nat} (h : Sound s) (henc : s.enc.wf = true)
    (hword : s.cmdWord = some (encode .encClose)) (hdone : s.done = false) (hopen : s.enc.mode = .opened)
    (hfill : s.enc.fill = 0) : MachineInv (awaitSinkClose sent s) := by
  have hanswered : ∀ q, Sound (s.withSinkCloseAnswers q) := fun _ => h.eqv ⟨rfl, rfl, rfl, rfl⟩
  unfold awaitSinkClose
  split
  · rename_i a later _
    cases a with
    | ack =>
      obtain ⟨hfew, -, hb⟩ := (Encoder.wf_iff _).1 henc
      have hlatch : Encoder.latchWf { s.enc with mode := .closed } = true := by
        simpa [Encoder.latchWf, hopen] using h.encLatch
      have hwf := (Encoder.wf_iff { s.enc with mode := .closed }).2 ⟨hfew, .inl (by rw [hfill]; rfl), hb⟩
      exact ((hanswered later).withEnc hlatch).finish hwf _ _ _ _
    | err info => exact (hanswered later).encFail info
  · exact h.wait _ (by rw [hword]; rfl) hdone (by simp) (.inr henc) ⟨hword, hopen, hfill⟩

/-- Waiting for a SinkPut (R174, R283). -/
theorem awaitPut_inv {goal : EmitFor} {c : Byte} {rest : List Byte} (h : MachineInv s)
    (hphase : s.phase = .putting c rest goal) : MachineInv (awaitPut goal c rest s) := by
  have hwf := h.phaseWf
  simp only [Phase.wf, hphase] at hwf
  obtain ⟨hword, hopen, hchars, hlen⟩ := hwf
  simp only [List.all_cons, Bool.and_eq_true] at hchars
  have hanswered : ∀ q, Sound (s.withPutAnswers q) := fun _ => h.sound.eqv ⟨rfl, rfl, rfl, rfl⟩
  unfold awaitPut
  split
  · rename_i later _
    have haccepted : Sound ((s.withPutAnswers later).sinkAccepts c) := (hanswered later).eqv ⟨rfl, rfl, rfl, rfl⟩
    exact emit_inv goal rest ((s.withPutAnswers later).sinkAccepts c) haccepted hword
      (h.notDone (by simp [State.busy, hphase])) hopen hchars.2 (by omega)
  · exact (hanswered _).encFail _
  · exact h

theorem MachineInv.withPutAnswers (h : MachineInv s) (q : List (Nat × Answer)) : MachineInv (s.withPutAnswers q) :=
  ⟨h.params, h.dmemWf, h.dmemInside, h.latched, h.notDone, h.encWf, h.encLatch, h.decWf, h.decLatch, h.phaseWf⟩

/-- With the duty kept the latched word executes at the end of its latency (R61). -/
theorem runAccepted_of_kept {w : Word} {dst : Region} (hword : s.cmdWord = some w) :
    runAccepted dst false s = runCommand w { s with phase := .running } := by
  simp [runAccepted, hword]

/-- A latency counts down, and at its end the latched word takes its effects (R61, R62). -/
theorem tick_accepted_inv {n : Nat} {src dst : Region} {broken : Bool} (h : MachineInv s)
    (hphase : s.phase = .accepted n src dst broken) (e : tick s = .next t) : MachineInv t := by
  have hwf := h.phaseWf
  simp only [Phase.wf, hphase] at hwf
  obtain ⟨hn, hsrc, hdst⟩ := hwf
  have hbusy : s.busy = true := by simp [State.busy, hphase]
  have henc := h.encWf (by simp [hphase, Phase.inEncoder])
  obtain ⟨w, hword⟩ := Option.isSome_iff_exists.1 (h.latched.trans hbusy)
  simp only [tick, hphase] at e
  split at e
  case isFalse hlong =>
    cases e
    exact h.sound.wait (.accepted (n - 1) src dst broken) (h.latched.trans hbusy) (h.notDone hbusy) (by simp)
      (.inr henc)
      ⟨by omega, hsrc, hdst⟩
  case isTrue =>
    cases broken with
    | true =>
      cases e
      exact finishUnspecified_inv h.sound henc hdst
    | false =>
      have hrunning : Sound { s with phase := .running } := h.sound.eqv ⟨rfl, rfl, rfl, rfl⟩
      rw [runAccepted_of_kept hword] at e
      exact runCommand_inv hrunning henc hword (h.notDone hbusy) e

/-- The engine's move, whatever it is doing. -/
theorem tick_inv (h : MachineInv s) (e : tick s = .next t) : MachineInv t := by
  have hwf := h.phaseWf
  have hdone : s.phase ≠ .idle → s.done = false := fun hne => h.notDone ((busy_eq_true_iff s).2 hne)
  have henc := h.encWf
  unfold Phase.wf at hwf
  cases hphase : s.phase with
  | idle | running =>
    simp only [tick, hphase] at e
    cases e
    exact h
  | accepted n src dst broken => exact tick_accepted_inv h hphase e
  | putting c rest goal =>
    simp only [tick, hphase] at e
    cases e
    exact awaitPut_inv (h.withPutAnswers _) hphase
  | closingSink sent =>
    simp only [hphase, tick] at e hwf hdone henc
    obtain ⟨hword, hopen, hfill⟩ := hwf
    cases e
    exact awaitSinkClose_inv (h.sound.eqv ⟨rfl, rfl, rfl, rfl⟩) (henc rfl) hword (hdone (by simp)) hopen hfill
  | pulling got goal =>
    simp only [hphase, tick] at e hwf hdone henc
    obtain ⟨hword, hactive, hgot, hgoal⟩ := hwf
    cases e
    exact pullOn_inv _ _ le_rfl got goal s h.sound (henc rfl) hword (hdone (by simp)) hactive hgot hgoal
  | skipping chars total left =>
    simp only [hphase, tick] at e hwf hdone henc
    obtain ⟨hword, hactive, hgroups, hchars⟩ := hwf
    exact awaitSkip_inv (s := s.withSkipAnswers (elapse s.source.skipAnswers)) chars total left (h.sound.source _)
      (henc rfl) hword (hdone (by simp)) hactive hgroups hchars e
  | availing =>
    simp only [hphase, tick] at e hwf hdone henc
    obtain ⟨hword, hactive⟩ := hwf
    cases e
    exact awaitAvail_inv (h.sound.source _) (henc rfl) hword (hdone (by simp)) hactive
  | closingSource =>
    simp only [hphase, tick] at e hwf hdone henc
    obtain ⟨hword, hmode⟩ := hwf
    cases e
    exact awaitSourceClose_inv (h.sound.source _) (henc rfl) hword (hdone (by simp)) hmode

/-! ### The host's accesses -/

/-- What a host access that starts no command can do: write a byte of DMEM, write an argument register while IDLE, and
break the host's duty; the engine, the adapters and the ports stay as they are (R23, R50, R62, R231). -/
structure AccessFrame (s t : State) : Prop where
  params : t.params = s.params
  cmdWord : t.cmdWord = s.cmdWord
  done : t.done = s.done
  enc : t.enc = s.enc
  dec : t.dec = s.dec
  sink : t.sink = s.sink
  source : t.source = s.source
  args : s.busy = true → t.args = s.args
  phase : t.phase = s.phase ∨
    ∃ n src dst broken broken', s.phase = .accepted n src dst broken ∧ t.phase = .accepted n src dst broken'
  dmem : t.dmem = s.dmem ∨ ∃ a v, a < s.params.dmemSize ∧ t.dmem = Memory.write s.dmem a v

theorem AccessFrame.refl (s : State) : AccessFrame s s :=
  ⟨rfl, rfl, rfl, rfl, rfl, rfl, rfl, fun _ => rfl, .inl rfl, .inl rfl⟩

/-- What the host's reads, and the flag of an ignored write, leave in the state is no part of the frame. -/
theorem AccessFrame.logged (h : AccessFrame s t) (inputs : List Input) (hostLog : List HostReply) (draws : Nat)
    (ovr : Bool) : AccessFrame s { t with inputs := inputs, hostLog := hostLog, draws := draws, ovr := ovr } :=
  ⟨h.params, h.cmdWord, h.done, h.enc, h.dec, h.sink, h.source, h.args, h.phase, h.dmem⟩

theorem AccessFrame.breakDuty (h : AccessFrame s t) (hphase : t.phase = s.phase) (touches : Region → Region → Bool) :
    AccessFrame s (t.breakDuty touches) := by
  unfold State.breakDuty
  split
  · rename_i n src dst broken hbulk
    exact ⟨h.params, h.cmdWord, h.done, h.enc, h.dec, h.sink, h.source, h.args,
      .inr ⟨n, src, dst, broken, _, hphase.symm.trans hbulk, rfl⟩, h.dmem⟩
  · exact h

theorem accessFrame_readStatus (s : State) : AccessFrame s (readStatus s).2 := by
  unfold readStatus
  split
  · exact (AccessFrame.refl s).logged _ _ _ _
  · exact .refl s

theorem accessFrame_readWhenIdle (value mask : Word) (s : State) : AccessFrame s (readWhenIdle value mask s).2 := by
  unfold readWhenIdle
  split
  · exact (AccessFrame.refl s).logged _ _ _ _
  · exact .refl s

theorem accessFrame_readOffset (off : Nat) (s : State) : AccessFrame s (readOffset off s).2 := by
  unfold readOffset
  split
  · rename_i n _
    cases n with
    | status => exact accessFrame_readStatus s
    | result | info0 | info1 | encState | decState | decBuf => exact accessFrame_readWhenIdle _ _ s
    | _ => exact .refl s
  · exact .refl s

theorem accessFrame_writeRegister (n : Option CsrName) (v : Word) (s : State) :
    AccessFrame s (writeRegister n v s) := by
  unfold writeRegister
  split
  · split
    · exact (AccessFrame.refl s).logged _ _ _ _
    · rename_i hidle
      exact ⟨rfl, rfl, rfl, rfl, rfl, rfl, rfl, fun hbusy => absurd hbusy hidle, .inl rfl, .inl rfl⟩
  · exact .refl s

theorem accessFrame_hostWait (s : State) : AccessFrame s (hostWait s) := by
  have hread := accessFrame_readStatus s
  unfold hostWait
  split <;> exact hread.logged _ _ _ _

theorem accessFrame_of_hostCsrRead {addr : Nat} {width : AccessWidth} (h : hostCsrRead addr width s = .next t) :
    AccessFrame s t := by
  unfold hostCsrRead at h
  split at h
  · cases h
    exact .refl s
  · split at h <;> cases h
    exact (accessFrame_readOffset _ s).logged _ _ _ _

theorem accessFrame_of_hostDmemWrite {addr : Nat} {v : Byte} (h : hostDmemWrite addr v s = .next t) :
    AccessFrame s t := by
  unfold hostDmemWrite at h
  split at h <;> cases h
  rename_i haddr
  have hstored : AccessFrame s { s with dmem := Memory.write s.dmem addr v } :=
    ⟨rfl, rfl, rfl, rfl, rfl, rfl, rfl, fun _ => rfl, .inl rfl, .inr ⟨addr, v, haddr, rfl⟩⟩
  exact hstored.breakDuty rfl _

theorem accessFrame_of_hostDmemRead {addr : Nat} (h : hostDmemRead addr s = .next t) : AccessFrame s t := by
  unfold hostDmemRead at h
  split at h
  · split at h <;> cases h
    · have hdrawn : AccessFrame s { s with draws := s.draws + 1 } := (AccessFrame.refl s).logged _ _ _ _
      exact (hdrawn.breakDuty rfl _).logged _ _ _ _
    · exact (AccessFrame.refl s).logged _ _ _ _
  · cases h

/-- A host write of the window leaves the frame, or starts a command by a CMD write to an IDLE engine (R230, R231). -/
theorem accessFrame_or_start_of_hostCsrWrite {addr : Nat} {width : AccessWidth} {v : Word}
    (h : hostCsrWrite addr width v s = .next t) :
    AccessFrame s t ∨
      addr = s.params.csrBase + csrOffset .cmd ∧ width = .word ∧ s.busy = false ∧ startCommand v s = .next t := by
  unfold hostCsrWrite at h
  split at h
  · cases h
    exact .inl (.refl s)
  split at h
  · cases h
  rename_i haligned
  obtain ⟨hwidth, hbase, -⟩ := (alignedAccess_iff s.params addr width).1 (by simpa using haligned)
  unfold writeOffset at h
  split at h
  · rename_i hcmd
    unfold writeCmd at h
    split at h
    · cases h
      exact .inl ((AccessFrame.refl s).logged _ _ _ _)
    · rename_i hidle
      exact .inr ⟨by rw [csrOffset_of_csrAt hcmd, Nat.add_sub_cancel' hbase], hwidth, by simpa using hidle, h⟩
  · cases h
    exact .inl (accessFrame_writeRegister _ _ s)

/-- What an input other than reset can do: an access within the frame, or a CMD write that starts a command. -/
theorem accessFrame_or_start {x : Input} (hx : x ≠ .reset) (h : takeInput x s = .next t) :
    AccessFrame s t ∨
      ∃ w, x = .csrWrite (s.params.csrBase + csrOffset .cmd) .word w ∧ s.busy = false ∧ startCommand w s = .next t := by
  cases x with
  | csrWrite addr width v =>
    refine (accessFrame_or_start_of_hostCsrWrite h).imp_right ?_
    rintro ⟨rfl, rfl, hidle, hstart⟩
    exact ⟨v, rfl, hidle, hstart⟩
  | csrRead addr width => exact .inl (accessFrame_of_hostCsrRead h)
  | dmemWrite addr v => exact .inl (accessFrame_of_hostDmemWrite h)
  | dmemRead addr => exact .inl (accessFrame_of_hostDmemRead h)
  | wait =>
    cases h
    exact .inl (accessFrame_hostWait s)
  | reset => exact absurd rfl hx

theorem AccessFrame.busy (h : AccessFrame s t) : t.busy = s.busy := by
  obtain hphase | ⟨_, _, _, _, _, hs, ht⟩ := h.phase
  · simp only [State.busy, hphase]
  · simp only [State.busy, hs, ht]

theorem AccessFrame.inEncoder (h : AccessFrame s t) : t.phase.inEncoder = s.phase.inEncoder := by
  obtain hphase | ⟨_, _, _, _, _, hs, ht⟩ := h.phase
  · rw [hphase]
  · rw [hs, ht]
    rfl

theorem AccessFrame.phaseWf (h : AccessFrame s t) (hwf : Phase.wf s) : Phase.wf t := by
  obtain hphase | ⟨_, _, _, _, _, hs, ht⟩ := h.phase
  · unfold Phase.wf at hwf ⊢
    rw [hphase, h.cmdWord, h.enc, h.dec, h.params]
    exact hwf
  · simp only [Phase.wf, hs] at hwf
    simpa only [Phase.wf, ht, h.params] using hwf

/-- A host access within the frame keeps the invariant. -/
theorem AccessFrame.inv (h : AccessFrame s t) (hinv : MachineInv s) : MachineInv t where
  params := h.params ▸ hinv.params
  dmemWf := by
    obtain hdmem | ⟨a, v, -, hdmem⟩ := h.dmem <;> rw [hdmem]
    · exact hinv.dmemWf
    · exact Memory.write_wf hinv.dmemWf a v
  dmemInside := by
    obtain hdmem | ⟨a, v, ha, hdmem⟩ := h.dmem <;> rw [hdmem, h.params]
    · exact hinv.dmemInside
    · exact Memory.write_inside hinv.dmemInside ha v
  latched := by rw [h.cmdWord, h.busy, hinv.latched]
  notDone := by
    rw [h.busy, h.done]
    exact hinv.notDone
  encWf := by
    rw [h.inEncoder, h.enc]
    exact hinv.encWf
  encLatch := h.enc ▸ hinv.encLatch
  decWf := h.dec ▸ hinv.decWf
  decLatch := h.dec ▸ hinv.decLatch
  phaseWf := h.phaseWf hinv.phaseWf

/-- The destination region a reset frees lies in DMEM (R272). -/
theorem MachineInv.inFlight_inDmem (h : MachineInv s) : s.inFlight.inDmem s.params.dmemSize = true := by
  have hwf := h.phaseWf
  unfold State.inFlight
  split
  · rename_i n src dst broken hphase
    simp only [Phase.wf, hphase] at hwf
    exact hwf.2.2
  · rfl

/-- Reset gives the reset values, and of DMEM it changes the abandoned destination alone (R270, R272). -/
theorem resetInput_inv (h : MachineInv s) : MachineInv (resetInput s) where
  params := h.params
  dmemWf := (h.sound.scramble h.inFlight_inDmem).dmemWf
  dmemInside := (h.sound.scramble h.inFlight_inDmem).dmemInside
  latched := rfl
  notDone := fun hbusy => absurd hbusy (by simp [State.busy, resetInput, State.reset])
  encWf := fun _ => rfl
  encLatch := rfl
  decWf := rfl
  decLatch := rfl
  phaseWf := trivial

/-! ### Steps -/

/-- The engine moves on after an input when it was running before it (R22). -/
theorem advance_next (wasBusy : Bool) (s : State) :
    advance wasBusy (.next s) = if wasBusy then tick s else .next s := rfl

/-- An IDLE engine makes no move of its own (R22). -/
theorem advance_of_idle {wasBusy : Bool} (hidle : t.phase = .idle) : advance wasBusy (.next t) = .next t := by
  cases wasBusy <;> simp [advance, tick, hidle]

/-- What a step can do: an access within the frame, after which the engine moves on if it was running; a reset; or the
start of a command on an IDLE engine. -/
theorem step_cases (h : step s = .next t) :
    (∃ u, AccessFrame s u ∧ advance s.busy (.next u) = .next t) ∨
      (∃ rest, s.inputs = .reset :: rest ∧ t = resetInput { s with inputs := rest }) ∨
      ∃ w rest, writes s .cmd w rest ∧ s.busy = false ∧ startCommand w { s with inputs := rest } = .next t := by
  unfold step handleInput at h
  split at h
  · exact .inl ⟨s, .refl s, h⟩
  rename_i x rest hinputs
  by_cases hreset : x = .reset
  · subst hreset
    rw [takeInput, advance_of_idle rfl] at h
    cases h
    exact .inr (.inl ⟨rest, hinputs, rfl⟩)
  cases htake : takeInput x { s with inputs := rest } with
  | fault | refused =>
    rw [htake] at h
    cases h
  | next u =>
    rw [htake] at h
    rcases accessFrame_or_start hreset htake with hframe | ⟨w, rfl, hidle, hstart⟩
    · exact .inl ⟨u, ⟨hframe.params, hframe.cmdWord, hframe.done, hframe.enc, hframe.dec, hframe.sink, hframe.source,
        hframe.args, hframe.phase, hframe.dmem⟩, h⟩
    · rw [show s.busy = false from hidle] at h
      cases h
      exact .inr (.inr ⟨w, rest, hinputs, hidle, hstart⟩)

/-- Settles O58: an access of the host keeps the invariant, and so do a reset, the start of a command, and the engine's
move. -/
theorem everyStepKeepsTheInvariant : Obligations.EveryStepKeepsTheInvariant := by
  intro s t hinv h
  obtain ⟨u, hframe, hadvance⟩ | ⟨rest, -, rfl⟩ | ⟨w, rest, -, hidle, hstart⟩ := step_cases h
  · have hu := hframe.inv hinv
    rw [advance_next] at hadvance
    split at hadvance
    · exact tick_inv hu hadvance
    · cases hadvance
      exact hu
  · exact resetInput_inv (((AccessFrame.refl s).logged rest _ _ _).inv hinv)
  · exact startCommand_inv (((AccessFrame.refl s).logged rest _ _ _).inv hinv) hidle hstart

/-- Settles O57: each field of the reset state is the one the invariant asks for. -/
theorem invariantHoldsAtReset : Obligations.InvariantHoldsAtReset where
  params := rfl
  dmemWf := rfl
  dmemInside := rfl
  latched := rfl
  notDone := fun _ => rfl
  encWf := fun _ => rfl
  encLatch := rfl
  decWf := rfl
  decLatch := rfl
  phaseWf := trivial

end Sys2Proof.Machine
end

section
/-! Steps on the host port, access by access: CSR accesses while IDLE and while BUSY, host accesses to DMEM, the wait
loop and reset, and what a command word does from acceptance to completion (R23-R36, R50-R62, R230-R235, R270-R286). -/

namespace Sys2Proof.Machine

open Sys2Proof.Claims

variable {s t : State}

/-! ### The shape of a step -/

theorem busy_eq_false_iff (s : State) : s.busy = false ↔ s.phase = .idle := by
  rw [← Bool.not_eq_true, busy_eq_true_iff, not_not]

theorem advance_false (r : Result) : advance false r = r := by
  cases r <;> rfl

theorem step_of_no_input (hinputs : s.inputs = []) : step s = advance s.busy (.next s) := by
  simp only [step, handleInput, hinputs]

theorem step_of_input {x : Input} {rest : List Input} (hinputs : s.inputs = x :: rest) :
    step s = advance s.busy (takeInput x { s with inputs := rest }) := by
  simp only [step, handleInput, hinputs]

theorem step_of_idle_input {x : Input} {rest : List Input} (hidle : s.phase = .idle) (hinputs : s.inputs = x :: rest) :
    step s = takeInput x { s with inputs := rest } := by
  rw [step_of_input hinputs, (busy_eq_false_iff s).2 hidle, advance_false]

theorem step_of_busy_no_input (hbusy : s.phase ≠ .idle) (hinputs : s.inputs = []) : step s = tick s := by
  rw [step_of_no_input hinputs, advance_next, (busy_eq_true_iff s).2 hbusy, if_pos rfl]

/-- The input is handled, and then the running engine moves on (R22). -/
theorem step_of_busy_input {x : Input} {rest : List Input} (hbusy : s.phase ≠ .idle) (hinputs : s.inputs = x :: rest)
    (htake : takeInput x { s with inputs := rest } = .next t) : step s = tick t := by
  rw [step_of_input hinputs, htake, advance_next, (busy_eq_true_iff s).2 hbusy, if_pos rfl]

theorem csrOffset_lt_window (n : CsrName) : csrOffset n < 256 := (csrOffset_le n).trans_lt (by decide)

/-- The host writes a register (R23, R53). -/
theorem takeInput_of_writes {n : CsrName} {v : Word} {rest : List Input} (h : writes s n v rest) :
    ∃ x, s.inputs = x :: rest ∧
      takeInput x { s with inputs := rest } = writeOffset (csrOffset n) v { s with inputs := rest } := by
  rw [writes, registerOffset_eq_csrOffset] at h
  exact ⟨_, h, hostCsrWrite_word { s with inputs := rest } v (csrOffset_lt_window n) (csrOffset_mod_four n)⟩

/-- The host reads a register (R23, R53). -/
theorem takeInput_of_reads {n : CsrName} {rest : List Input} (h : reads s n rest) :
    ∃ x, s.inputs = x :: rest ∧
      takeInput x { s with inputs := rest } =
        .next ((readCsr n { s with inputs := rest }).2.reply
          (.csr (csrOffset n) (readCsr n { s with inputs := rest }).1)) := by
  have hread : readOffset (csrOffset n) { s with inputs := rest } = readCsr n { s with inputs := rest } := by
    simp only [readOffset, csrAt_csrOffset]
  rw [reads, registerOffset_eq_csrOffset] at h
  refine ⟨_, h, ?_⟩
  rw [← hread]
  exact hostCsrRead_word { s with inputs := rest } (csrOffset_lt_window n) (csrOffset_mod_four n)

theorem writeOffset_csrOffset {n : CsrName} (hn : n ≠ .cmd) (v : Word) (s : State) :
    writeOffset (csrOffset n) v s = .next (writeRegister (some n) v s) := by
  simp only [writeOffset, csrAt_csrOffset]
  split
  · rename_i hcmd
    exact absurd (Option.some.inj hcmd) hn
  · rfl

/-! ### From acceptance to completion (R230, R235, R286) -/

theorem runCommand_of_ok {w : Word} {i : Instr} (hdecode : decode w = .ok i) (s : State) :
    runCommand w s = exec i s := by
  simp only [runCommand, hdecode]

theorem runCommand_of_error {w : Word} (hdecode : ∃ e, decode w = .error e) (s : State) :
    runCommand w s = .next (completed s .illegalCommand 0 w 0) := by
  obtain ⟨e, he⟩ := hdecode
  simp only [runCommand, he, illegalCommand, State.raise_eq_completed]

theorem step_of_idle_cmd {w : Word} {rest : List Input} (hidle : s.phase = .idle) (h : writes s .cmd w rest) :
    step s = startCommand w { s with inputs := rest } := by
  obtain ⟨x, hinputs, htake⟩ := takeInput_of_writes h
  rw [step_of_idle_input hidle hinputs, htake, writeOffset, csrAt_csrOffset, writeCmd,
    show State.busy { s with inputs := rest } = false from (busy_eq_false_iff s).2 hidle]
  rfl

/-- A word whose latency is 0 is accepted and executes in the same step. -/
theorem startCommand_of_no_latency {w : Word} {lat : List Nat}
    (hlatency : s.latency = lat ∧ lat = [] ∨ s.latency = 0 :: lat) :
    startCommand w s = runCommand w { s.accept w with latency := lat } := by
  obtain ⟨rfl, hnone⟩ | hzero := hlatency
  · simp only [startCommand, hnone]
    rw [← hnone]
    rfl
  · simp only [startCommand, hzero]

theorem startCommand_of_latency {w : Word} {n : Nat} {lat : List Nat} (hlatency : s.latency = (n + 1) :: lat) :
    startCommand w s =
      .next { s.accept w with latency := lat, phase := .accepted (n + 1) (wordSrc w s) (wordDst w s) false } := by
  simp only [startCommand, hlatency]

section
variable {n : Nat} {src dst : Region} {broken : Bool}

theorem tick_accepted_counts (hphase : s.phase = .accepted (n + 2) src dst broken) :
    tick s = .next { s with phase := .accepted (n + 1) src dst broken } := by
  simp [tick, hphase]

theorem tick_accepted_runs {w : Word} (hphase : s.phase = .accepted 1 src dst false) (hword : s.cmdWord = some w) :
    tick s = runCommand w { s with phase := .running } := by
  simp only [tick, hphase, le_refl, if_true, runAccepted_of_kept hword]

theorem tick_accepted_executes {w : Word} {i : Instr} (hphase : s.phase = .accepted 1 src dst false)
    (hword : s.cmdWord = some w) (hdecode : decode w = .ok i) : tick s = exec i { s with phase := .running } :=
  (tick_accepted_runs hphase hword).trans (runCommand_of_ok hdecode _)

theorem tick_accepted_broken (hphase : s.phase = .accepted 1 src dst true) :
    tick s = .next (s.finishUnspecified dst) := by
  simp [tick, hphase, runAccepted]

theorem busy_of_accepted (hphase : s.phase = .accepted n src dst broken) : s.phase ≠ .idle := by
  simp [hphase]

end

/-- Settles O5: the write reaches CMD of an IDLE engine, and with no latency the decoded command executes at once. -/
theorem stepRunsTheDecodedCommand : Obligations.StepRunsTheDecodedCommand := by
  intro s w i rest lat hidle hwrites hdecode hlatency
  rw [step_of_idle_cmd hidle hwrites, startCommand_of_no_latency (s := { s with inputs := rest }) hlatency,
    runCommand_of_ok hdecode]
  rfl

/-! ### Writes while BUSY (R231) -/

/-- The registers a host write can change, or is an overrun of, are the RW ones (R23). -/
theorem Args.write_of_not_mem {n : CsrName} (hn : n ∉ rwCsrs) (a : Args) (v : Word) : a.write n v = none := by
  cases n with
  | srcBase | srcLen | srcOff | srcCnt | dstBase | dstLen | dstOff | arg => simp [rwCsrs] at hn
  | _ => rfl

/-- A write to an RW register stores the value there and nowhere else (R23, R29-R31). -/
theorem Args.exists_write_of_mem {n : CsrName} (hn : n ∈ rwCsrs) (a : Args) (v : Word) :
    ∃ b : Args, a.write n v = some b ∧ holds b n v ∧ ∀ m ∈ rwCsrs, m ≠ n → ∀ x, holds a m x → holds b m x := by
  simp only [rwCsrs, List.mem_cons, List.not_mem_nil, or_false] at hn
  rcases hn with rfl | rfl | rfl | rfl | rfl | rfl | rfl | rfl <;>
    exact ⟨_, rfl, rfl, fun m hm hne x hx => by cases m <;> simp_all [holds]⟩

theorem writeOffset_of_busy (hbusy : s.phase ≠ .idle) (n : CsrName) (v : Word) :
    writeOffset (csrOffset n) v s = .next { s with ovr := if n = .cmd ∨ n ∈ rwCsrs then true else s.ovr } := by
  have hbusy := (busy_eq_true_iff s).2 hbusy
  by_cases hcmd : n = .cmd
  · subst hcmd
    simp [writeOffset, csrAt_csrOffset, writeCmd, hbusy]
  rw [writeOffset_csrOffset hcmd, writeRegister]
  by_cases hrw : n ∈ rwCsrs
  · obtain ⟨a, ha, -⟩ := s.args.exists_write_of_mem hrw v
    simp [ha, hbusy, hrw]
  · simp [s.args.write_of_not_mem hrw v, hcmd, hrw]

/-- Settles O8: the write changes OVR at most, and the engine moves on. -/
theorem busyWritesAreIgnoredAndSetOvr : Obligations.BusyWritesAreIgnoredAndSetOvr := by
  intro s n v rest hbusy hwrites
  obtain ⟨x, hinputs, htake⟩ := takeInput_of_writes hwrites
  exact step_of_busy_input hbusy hinputs (htake.trans (writeOffset_of_busy (s := { s with inputs := rest }) hbusy n v))

/-- Settles O6: an illegal word is accepted and completes at the end of its latency, an overrun in the last step only
setting OVR. -/
theorem illegalWordCompletesWithIllegalCommand : Obligations.IllegalWordCompletesWithIllegalCommand := by
  constructor
  · intro s w rest lat hidle hwrites herror hlatency
    rw [step_of_idle_cmd hidle hwrites, startCommand_of_no_latency (s := { s with inputs := rest }) hlatency,
      runCommand_of_error herror]
    rfl
  · intro s w src dst hphase hword herror
    have hbusy := busy_of_accepted hphase
    constructor
    · intro hinputs
      rw [step_of_busy_no_input hbusy hinputs, tick_accepted_runs hphase hword, runCommand_of_error herror]
      rfl
    · intro n v rest hn hwrites
      rw [busyWritesAreIgnoredAndSetOvr s n v rest hbusy hwrites, if_pos hn,
        tick_accepted_runs (s := { s with inputs := rest, ovr := true }) hphase hword, runCommand_of_error herror]
      rfl

/-- Settles O7: acceptance with a latency only latches the word and its regions; then the latency counts down, and at
its end the command executes. -/
theorem latencyKeepsTheCommandAccepted : Obligations.LatencyKeepsTheCommandAccepted := by
  refine ⟨fun s w n rest lat hidle hwrites hlatency => ?_, fun s n src dst broken hphase hinputs => ?_,
    fun s w i src dst hphase hinputs hword hdecode => ?_⟩
  · rw [step_of_idle_cmd hidle hwrites, startCommand_of_latency (s := { s with inputs := rest }) hlatency]
    constructor
    · intro i hdecode
      simp only [wordSrc, wordDst, hdecode]
      cases i <;> rfl
    · rintro ⟨e, he⟩
      simp only [wordSrc, wordDst, he]
      rfl
  · rw [step_of_busy_no_input (busy_of_accepted hphase) hinputs, tick_accepted_counts hphase]
  · rw [step_of_busy_no_input (busy_of_accepted hphase) hinputs, tick_accepted_executes hphase hword hdecode]

/-! ### Registers while IDLE (R23-R34) -/

/-- A read of an RW register returns what it holds, whatever the engine does, and changes nothing (R23, R280). -/
theorem readCsr_of_holds {n : CsrName} {v : Word} (hn : n ∈ rwCsrs) (hv : holds s.args n v) :
    readCsr n s = (v, s) := by
  simp only [rwCsrs, List.mem_cons, List.not_mem_nil, or_false] at hn
  rcases hn with rfl | rfl | rfl | rfl | rfl | rfl | rfl | rfl <;> exact Prod.ext hv rfl

/-- While IDLE the value read reaches the host and nothing else changes. -/
theorem step_of_idle_reads {n : CsrName} {v : Word} {rest : List Input} (hidle : s.phase = .idle)
    (hreads : reads s n rest) (hv : readCsr n { s with inputs := rest } = (v, { s with inputs := rest })) :
    step s = .next (answered s (csrOffset n) v rest) := by
  obtain ⟨x, hinputs, htake⟩ := takeInput_of_reads hreads
  rw [step_of_idle_input hidle hinputs, htake, hv]
  rfl

/-- Settles O9: a write acts on its register alone, and a read of an RW register shows it. -/
theorem idleRegisterWritesStore : Obligations.IdleRegisterWritesStore := by
  refine ⟨fun s n v rest hidle hrw hwrites => ?_, fun s n v rest hidle hro hcmd hwrites => ?_,
    fun s n v rest hidle hrw hv hreads => ?_⟩
  · obtain ⟨x, hinputs, htake⟩ := takeInput_of_writes hwrites
    obtain ⟨a, ha, hstored⟩ := s.args.exists_write_of_mem hrw v
    have hcmd : n ≠ .cmd := by
      rintro rfl
      exact absurd hrw (by decide)
    have hbusy : State.busy { s with inputs := rest } = false := (busy_eq_false_iff s).2 hidle
    refine ⟨a, ?_, hstored⟩
    rw [step_of_idle_input hidle hinputs, htake, writeOffset_csrOffset hcmd]
    simp [writeRegister, ha, hbusy]
  · obtain ⟨x, hinputs, htake⟩ := takeInput_of_writes hwrites
    rw [step_of_idle_input hidle hinputs, htake, writeOffset_csrOffset hcmd]
    simp [writeRegister, Args.write_of_not_mem hro]
  · rw [registerOffset_eq_csrOffset]
    exact step_of_idle_reads hidle hreads (readCsr_of_holds (s := { s with inputs := rest }) hrw hv)

/-! ### The words of the state registers as numbers (R26, R32-R34, R240) -/

/-- Two fields of a word, the higher one first. -/
theorem toNat_append_eq {m n : Nat} (x : BitVec m) (y : BitVec n) : (x ++ y).toNat = x.toNat * 2 ^ n + y.toNat := by
  rw [BitVec.toNat_append, ← Nat.shiftLeft_add_eq_or_of_lt y.isLt, Nat.shiftLeft_eq]

@[simp] theorem toNat_codeBits (c : Code) : c.bits.toNat = codeNumber c := by cases c <;> rfl

@[simp] theorem toNat_encModeBits (m : EncMode) : m.bits.toNat = encModeNumber m := by cases m <;> rfl

@[simp] theorem toNat_decModeBits (m : DecMode) : m.bits.toNat = decModeNumber m := by cases m <;> rfl

@[simp] theorem toNat_flagBit (b : Bool) : (flagBit b).toNat = b.toNat := by cases b <;> rfl

theorem toNat_statusOf (busy done ovr : Bool) (code : BitVec 4) :
    (statusOf busy done ovr code).toNat = busy.toNat + 2 * done.toNat + 4 * ovr.toNat + 2 ^ 8 * code.toNat := by
  simp only [statusOf, toNat_append_eq, toNat_flagBit, BitVec.toNat_ofNat]
  omega

theorem toNat_encStateWord (e : Encoder) :
    e.stateWord.toNat = e.fill.val + 2 ^ 2 * encModeNumber e.mode + 2 ^ 4 * codeNumber e.latch.code +
      2 ^ 8 * e.hb.b0.toNat + 2 ^ 16 * e.hb.b1.toNat := by
  have hfill := e.fill.isLt
  simp only [Encoder.stateWord, toNat_append_eq, toNat_codeBits, toNat_encModeBits, BitVec.toNat_ofNat]
  omega

theorem toNat_decStateWord (d : Decoder) :
    d.stateWord.toNat = d.cursor.val + 2 ^ 2 * d.valid.val + 2 ^ 4 * decModeNumber d.mode +
      2 ^ 8 * codeNumber d.latch.code := by
  have hcursor := d.cursor.isLt
  have hvalid := d.valid.isLt
  simp only [Decoder.stateWord, toNat_append_eq, toNat_codeBits, toNat_decModeBits, BitVec.toNat_ofNat]
  omega

theorem toNat_decBufWord (d : Decoder) :
    d.bufWord.toNat = d.buf.b0.toNat + 2 ^ 8 * d.buf.b1.toNat + 2 ^ 16 * d.buf.b2.toNat := by
  simp only [Decoder.bufWord, toNat_append_eq, BitVec.toNat_ofNat]
  omega

theorem readStatus_of_idle (hidle : s.phase = .idle) : readStatus s = (s.statusWord, s) := by
  simp [readStatus, (busy_eq_false_iff s).2 hidle]

theorem readWhenIdle_of_idle (hidle : s.phase = .idle) (value mask : Word) :
    readWhenIdle value mask s = (value, s) := by
  simp [readWhenIdle, (busy_eq_false_iff s).2 hidle]

/-- Settles O10: each register reads its word, and the word is its fields at their places. -/
theorem idleReadsShowTheRegisters : Obligations.IdleReadsShowTheRegisters := by
  intro s rest hidle
  have hidle' : State.phase { s with inputs := rest } = .idle := hidle
  have hwhen := fun value mask => readWhenIdle_of_idle hidle' value mask
  refine ⟨fun h => step_of_idle_reads hidle h rfl, fun h => step_of_idle_reads hidle h rfl,
    fun h => ⟨s.statusWord, step_of_idle_reads hidle h (readStatus_of_idle hidle'), ?_⟩,
    fun h => step_of_idle_reads hidle h (hwhen _ _), fun h => step_of_idle_reads hidle h (hwhen _ _),
    fun h => step_of_idle_reads hidle h (hwhen _ _),
    fun h => ⟨_, step_of_idle_reads hidle h (hwhen _ _), toNat_encStateWord s.enc⟩,
    fun h => ⟨_, step_of_idle_reads hidle h (hwhen _ _), toNat_decStateWord s.dec⟩,
    fun h => ⟨_, step_of_idle_reads hidle h (hwhen _ _), toNat_decBufWord s.dec⟩⟩
  rw [State.statusWord, toNat_statusOf, (busy_eq_false_iff s).2 hidle, toNat_codeBits]
  simp

/-- Settles O16: the reset values read as 0 through every register but ID. -/
theorem resetLeavesEveryRegisterAtItsValue : Obligations.ResetLeavesEveryRegisterAtItsValue :=
  ⟨fun n => by cases n <;> decide, rfl, rfl, rfl, rfl⟩

/-! ### Reads while BUSY (R280) -/

/-- The word STATUS reads while BUSY with DONE = 0: the flags exact, the reserved bits 0, CODE as it came (R26,
R280). -/
theorem statusOf_busy_fields (ovr : Bool) (code : BitVec 4) :
    statusOf true false ovr code &&& 0xFFFFF0FF#32 = (if ovr then 0x5#32 else 0x1#32) ∧
      statusOf true false ovr code >>> 8 = code.setWidth 32 := by
  revert ovr code
  decide +kernel

theorem setWidth_extractLsb'_low4 (w : Word) : (w.extractLsb' 0 4).setWidth 32 = w &&& 0xF#32 := by
  apply BitVec.eq_of_toNat_eq
  simp [BitVec.extractLsb'_toNat, Nat.and_two_pow_sub_one_eq_mod _ 4]
  omega

/-- While BUSY the value read reaches the host and the engine moves on. -/
theorem step_of_busy_reads {n : CsrName} {v : Word} {u : State} {rest : List Input} (hbusy : s.phase ≠ .idle)
    (hreads : reads s n rest) (hv : readCsr n { s with inputs := rest } = (v, u)) :
    step s = tick (u.reply (.csr (csrOffset n) v)) := by
  obtain ⟨x, hinputs, htake⟩ := takeInput_of_reads hreads
  rw [hv] at htake
  exact step_of_busy_input hbusy hinputs htake

theorem readStatus_of_busy (hbusy : s.phase ≠ .idle) :
    readStatus s = (statusOf true s.done s.ovr ((Config.freeWord s.draws).extractLsb' 0 4),
      { s with draws := s.draws + 1 }) := by
  simp [readStatus, (busy_eq_true_iff s).2 hbusy]

theorem readWhenIdle_of_busy (hbusy : s.phase ≠ .idle) (value mask : Word) :
    readWhenIdle value mask s = (Config.freeWord s.draws &&& mask, { s with draws := s.draws + 1 }) := by
  simp [readWhenIdle, unspecifiedRead, (busy_eq_true_iff s).2 hbusy]

/-- Settles O11: one read per kind of register, exact or free, and then the engine's move. -/
theorem busyReadsAreExactOrFree : Obligations.BusyReadsAreExactOrFree := by
  intro s rest hbusy hdone
  have hbusy' : State.phase { s with inputs := rest } ≠ .idle := hbusy
  refine ⟨fun n v hexact hreads => ?_, fun hreads => ?_, fun n mask hn hreads => ?_⟩
  · have hv : readCsr n { s with inputs := rest } = (v, { s with inputs := rest }) := by
      obtain ⟨rfl, rfl⟩ | ⟨rfl, rfl⟩ | ⟨hrw, hholds⟩ := hexact
      · rfl
      · rfl
      · exact readCsr_of_holds (s := { s with inputs := rest }) hrw hholds
    rw [step_of_busy_reads hbusy hreads hv, registerOffset_eq_csrOffset]
    rfl
  · obtain ⟨hflags, hcode⟩ := statusOf_busy_fields s.ovr ((Config.freeWord s.draws).extractLsb' 0 4)
    refine ⟨_, step_of_busy_reads hbusy hreads (readStatus_of_busy hbusy'), ?_⟩
    rw [← hdone] at hflags hcode
    exact ⟨hflags, hcode.trans (setWidth_extractLsb'_low4 _)⟩
  · have hv : readCsr n { s with inputs := rest } =
        (Config.freeWord s.draws &&& mask, { s with inputs := rest, draws := s.draws + 1 }) := by
      simp only [List.mem_cons, Prod.mk.injEq, List.not_mem_nil, or_false] at hn
      rcases hn with ⟨rfl, rfl⟩ | ⟨rfl, rfl⟩ | ⟨rfl, rfl⟩ | ⟨rfl, rfl⟩ | ⟨rfl, rfl⟩ | ⟨rfl, rfl⟩ <;>
        exact readWhenIdle_of_busy hbusy' _ _
    rw [step_of_busy_reads hbusy hreads hv, registerOffset_eq_csrOffset]
    rfl

/-- Settles O15: one turn of the loop is a read of STATUS, after which `wait` is the next input again while BUSY. -/
theorem waitPollsStatusUntilIdle : Obligations.WaitPollsStatusUntilIdle := by
  intro s rest hinputs
  constructor
  · intro hidle
    have hread := readStatus_of_idle (s := { s with inputs := rest }) hidle
    rw [step_of_idle_input hidle hinputs, takeInput, hostWait, hread,
      show State.busy { s with inputs := rest } = false from (busy_eq_false_iff s).2 hidle]
    rfl
  · intro hbusy
    have hread := readStatus_of_busy (s := { s with inputs := rest }) hbusy
    have hlow : ∀ (done ovr : Bool) (code : BitVec 4), statusOf true done ovr code &&& 1#32 = 1#32 := by decide +kernel
    refine ⟨_, hlow s.done s.ovr ((Config.freeWord s.draws).extractLsb' 0 4), ?_⟩
    rw [hinputs]
    apply step_of_busy_input hbusy hinputs
    rw [takeInput, hostWait, hread, show State.busy { s with inputs := rest } = true from (busy_eq_true_iff s).2 hbusy]
    rfl

/-- Settles O13: the access touches the window and is not an aligned 32-bit one. -/
theorem otherCsrAccessesAreRefused : Obligations.OtherCsrAccessesAreRefused := by
  intro s addr width v rest hlow hhigh hshape
  have htouches : touchesWindow s.params addr width = true := (touchesWindow_iff _ _ _).2 ⟨hhigh, hlow⟩
  have hmisaligned : alignedAccess s.params addr width = false := by
    rw [← Bool.not_eq_true, alignedAccess_iff]
    rintro ⟨hword, hbase, hmod⟩
    obtain hne | hlt | hne := hshape
    · exact hne hword
    · exact Nat.not_lt.2 hbase hlt
    · exact hne hmod
  constructor <;> intro hinputs <;> rw [step_of_input hinputs]
  · simp [takeInput, hostCsrRead, htouches, hmisaligned, advance]
  · simp [takeInput, hostCsrWrite, htouches, hmisaligned, advance]

/-! ### Host accesses to DMEM (R50, R62) -/

theorem breakDuty_of_idle (hidle : s.phase = .idle) (touches : Region → Region → Bool) : s.breakDuty touches = s := by
  simp only [State.breakDuty, hidle]

theorem inFlight_of_idle (hidle : s.phase = .idle) : s.inFlight = Region.none := by
  simp only [State.inFlight, hidle]

/-- One byte stored (R54). -/
theorem Memory.write_stored {m : Memory} (hwf : Memory.wf m = true) (a : Nat) (v : Byte) :
    Stored m (Memory.write m a v) a [v] := Memory.writeBytes_stored hwf a [v]

/-- Settles O14: an idle engine guards no byte, so a DMEM access stores or reads one byte, or is out of range. -/
theorem hostDmemAccesses : Obligations.HostDmemAccesses := by
  intro s a v rest hidle hwf
  refine ⟨fun ha hinputs => ?_, fun ha hinputs => ?_, fun ha hinputs => ?_, fun ha hinputs => ?_⟩
  · refine ⟨_, (step_of_idle_input hidle hinputs).trans ?_, Memory.write_stored hwf a v⟩
    exact (if_pos ha).trans (congrArg _ (breakDuty_of_idle (by exact hidle) _))
  · refine (step_of_idle_input hidle hinputs).trans ((if_pos ha).trans (if_neg ?_))
    simp [inFlight_of_idle (s := { s with inputs := rest }) hidle]
  · exact (step_of_idle_input hidle hinputs).trans (if_neg (Nat.not_lt.2 ha))
  · exact (step_of_idle_input hidle hinputs).trans (if_neg (Nat.not_lt.2 ha))

section
variable {n a : Nat} {src dst : Region} {broken : Bool} {rest : List Input}
  (hphase : s.phase = .accepted n src dst broken) (ha : a < s.params.dmemSize)
include hphase ha

/-- A host write of a DMEM byte while a bulk command is accepted (R62). -/
theorem step_dmemWrite_of_accepted {v : Byte} (hinputs : s.inputs = .dmemWrite a v :: rest) :
    step s = tick { s with
      inputs := rest
      dmem := Memory.write s.dmem a v
      phase := .accepted n src dst (broken || (src.contains a || dst.contains a)) } := by
  apply step_of_busy_input (busy_of_accepted hphase) hinputs
  simp [takeInput, hostDmemWrite, ha, State.breakDuty, hphase]

/-- A host read of a byte of the destination region is a free value, and breaks the duty (R62). -/
theorem step_dmemRead_of_inside (hdst : dst.contains a = true) (hinputs : s.inputs = .dmemRead a :: rest) :
    step s = tick { s with
      inputs := rest
      hostLog := s.hostLog ++ [.dmem a (Config.freeByte s.draws)]
      draws := s.draws + 1
      phase := .accepted n src dst true } := by
  apply step_of_busy_input (busy_of_accepted hphase) hinputs
  simp [takeInput, hostDmemRead, ha, State.inFlight, State.breakDuty, hphase, hdst, State.reply]

/-- A host read of any other byte keeps the duty (R62). -/
theorem step_dmemRead_of_outside (hdst : dst.contains a = false) (hinputs : s.inputs = .dmemRead a :: rest) :
    step s = tick { s with inputs := rest, hostLog := s.hostLog ++ [.dmem a (Memory.read s.dmem a)] } := by
  apply step_of_busy_input (busy_of_accepted hphase) hinputs
  simp [takeInput, hostDmemRead, ha, State.inFlight, hphase, hdst, State.reply]

end

/-- A region filled with free values (R62, R272). -/
theorem freeBytes_stored {m : Memory} (hwf : Memory.wf m = true) (draw : Nat) (dst : Region) :
    Stored m (Memory.writeBytes m dst.start (freeBytes draw dst.len)) dst.start (freeBytes draw dst.len) :=
  Memory.writeBytes_stored hwf _ _

/-- Settles O19: the access is handled first; then the latency counts down, or the command completes with free values or
takes its effects. -/
theorem brokenHostDutyLeavesFreeValues : Obligations.BrokenHostDutyLeavesFreeValues := by
  refine ⟨fun s n src dst broken a v rest hphase ha => ⟨fun hinputs => ?_, fun hinputs hdst => ?_,
      fun hinputs hdst => ?_⟩, fun s src dst hwf hphase hinputs => ?_,
    fun s src dst broken a v rest hwf hphase ha => ⟨fun hinputs htouches => ?_, fun hinputs hdst => ?_,
      fun hinputs hdst hbroken => ?_, fun w i hkept hword hdecode => ⟨fun hinputs hsrc hdst => ?_,
      fun hinputs hdst => ?_⟩⟩⟩
  · rw [step_dmemWrite_of_accepted hphase ha hinputs]
    exact tick_accepted_counts rfl
  · rw [step_dmemRead_of_inside hphase ha hdst hinputs]
    exact tick_accepted_counts rfl
  · rw [step_dmemRead_of_outside hphase ha hdst hinputs]
    exact tick_accepted_counts hphase
  · refine ⟨_, _, ?_, rfl, freeBytes_stored hwf _ _⟩
    exact (step_of_busy_no_input (busy_of_accepted hphase) hinputs).trans (tick_accepted_broken hphase)
  · refine ⟨_, _, ?_, rfl, freeBytes_stored (Memory.write_wf hwf a v) _ _⟩
    rw [step_dmemWrite_of_accepted hphase ha hinputs,
      show (broken || (src.contains a || dst.contains a)) = true by simpa using htouches]
    exact tick_accepted_broken rfl
  · refine ⟨_, _, ?_, rfl, freeBytes_stored hwf _ _⟩
    rw [step_dmemRead_of_inside hphase ha hdst hinputs]
    exact tick_accepted_broken rfl
  · subst hbroken
    refine ⟨_, _, ?_, rfl, freeBytes_stored hwf _ _⟩
    rw [step_dmemRead_of_outside hphase ha hdst hinputs]
    exact tick_accepted_broken hphase
  · subst hkept
    rw [step_dmemWrite_of_accepted hphase ha hinputs, hsrc, hdst]
    exact tick_accepted_executes rfl (by exact hword) hdecode
  · subst hkept
    rw [step_dmemRead_of_outside hphase ha hdst hinputs]
    exact tick_accepted_executes (by exact hphase) (by exact hword) hdecode

/-- Settles O17: reset gives its values whatever runs, and of DMEM it frees the destination in flight alone. -/
theorem resetAbandonsARunningCommand : Obligations.ResetAbandonsARunningCommand := by
  intro s rest hwf hinputs
  have hstep : step s = .next (resetInput { s with inputs := rest }) :=
    (step_of_input hinputs).trans (advance_of_idle rfl)
  refine ⟨_, _, hstep, ?_⟩
  cases hphase : s.phase with
  | accepted n src dst broken => exact freeBytes_stored hwf _ _
  | _ => exact ⟨rfl, rfl⟩

/-! ### A port that never answers (R283) -/

theorem elapse_of_empty {α : Type} {q : List (Nat × α)} (h : q = []) : elapse q = q := by
  subst h
  rfl

theorem awaitPut_of_late {c : Byte} {cs : List Byte} {goal : EmitFor} (h : Late s.sink.putAnswers) :
    awaitPut goal c cs s = s := by
  simp only [awaitPut, (readyAnswer_eq_none_iff _).2 h]

theorem awaitSinkClose_of_late {sent : Nat} (h : Late s.sink.closeAnswers) :
    awaitSinkClose sent s = s.waitIn (.closingSink sent) := by
  simp only [awaitSinkClose, (readyAnswer_eq_none_iff _).2 h]

theorem awaitSkip_of_late {asked total left : Nat} (h : Late s.source.skipAnswers) :
    awaitSkip asked total left s = .next (s.waitIn (.skipping asked total left)) := by
  simp only [awaitSkip, (readyAnswer_eq_none_iff _).2 h]

theorem awaitAvail_of_late (h : Late s.source.availAnswers) : awaitAvail s = s.waitIn .availing := by
  simp only [awaitAvail, (readyAnswer_eq_none_iff _).2 h]

theorem awaitSourceClose_of_late (h : Late s.source.closeAnswers) : awaitSourceClose s = s.waitIn .closingSource := by
  simp only [awaitSourceClose, (readyAnswer_eq_none_iff _).2 h]

theorem waitIn_of_phase {p : Phase} (h : s.phase = p) : s.waitIn p = s := by
  subst h
  rfl

/-- With no answer to come the engine's move changes nothing. -/
theorem tick_of_unanswered (h : Unanswered s) : tick s = .next s := by
  unfold Unanswered at h
  cases hphase : s.phase with
  | idle | running | accepted => simp [hphase] at h
  | putting c rest goal =>
    simp only [hphase] at h
    simp only [tick, hphase, elapse_of_empty h]
    exact congrArg _ (awaitPut_of_late (.inl h))
  | closingSink sent =>
    simp only [hphase] at h
    simp only [tick, hphase, elapse_of_empty h]
    exact congrArg _ ((awaitSinkClose_of_late (.inl h)).trans (waitIn_of_phase hphase))
  | pulling got goal =>
    simp only [hphase] at h
    simp only [tick, hphase, elapse_of_empty h]
    exact congrArg _ ((pullOn_wait _ got goal s (.inl h)).trans (waitIn_of_phase hphase))
  | skipping chars total left =>
    simp only [hphase] at h
    simp only [tick, hphase, elapse_of_empty h]
    exact (awaitSkip_of_late (.inl h)).trans (congrArg _ (waitIn_of_phase hphase))
  | availing =>
    simp only [hphase] at h
    simp only [tick, hphase, elapse_of_empty h]
    exact congrArg _ ((awaitAvail_of_late (.inl h)).trans (waitIn_of_phase hphase))
  | closingSource =>
    simp only [hphase] at h
    simp only [tick, hphase, elapse_of_empty h]
    exact congrArg _ ((awaitSourceClose_of_late (.inl h)).trans (waitIn_of_phase hphase))

theorem phase_of_unanswered (h : Unanswered s) :
    s.phase ≠ .idle ∧ ∀ n src dst broken, s.phase ≠ .accepted n src dst broken := by
  unfold Unanswered at h
  constructor
  · intro hphase
    simp [hphase] at h
  · intro n src dst broken hphase
    simp [hphase] at h

/-- A host access leaves a waiting engine's phase as it is. -/
theorem AccessFrame.phase_of_unanswered (hframe : AccessFrame s t) (h : Unanswered s) : t.phase = s.phase :=
  hframe.phase.resolve_right fun ⟨n, src, dst, broken, _, hs, _⟩ =>
    (Machine.phase_of_unanswered h).2 n src dst broken hs

/-- Settles O18: an access leaves the wait as it is, and with no answer the engine's move changes nothing. -/
theorem unansweredRequestHangs : Obligations.UnansweredRequestHangs := by
  constructor
  · intro s h hinputs
    rw [step_of_busy_no_input (phase_of_unanswered h).1 hinputs, tick_of_unanswered h]
  · intro s t x rest h hinputs hreset hstep
    have hbusy := (busy_eq_true_iff s).2 (phase_of_unanswered h).1
    obtain ⟨u, hframe, hadvance⟩ | ⟨rest', hinputs', -⟩ | ⟨w, rest', -, hidle, -⟩ := step_cases hstep
    · have hphase := hframe.phase_of_unanswered h
      have hu : Unanswered u := by
        unfold Unanswered at h ⊢
        rwa [hphase, hframe.sink, hframe.source]
      rw [hbusy, advance_next, if_pos rfl, tick_of_unanswered hu] at hadvance
      cases hadvance
      exact ⟨hphase, hframe.cmdWord, hframe.enc, hframe.dec, hframe.args hbusy, hframe.sink, hframe.source⟩
    · rw [hinputs] at hinputs'
      exact absurd (List.cons.inj hinputs').1 hreset
    · rw [hbusy] at hidle
      cases hidle

/-! ### The regions a command guards (R62) -/

section
variable {check : Option Report} (r : Region) (size a : Nat)

/-- A region whose checks pass is guarded as far as DMEM has it. -/
theorem contains_guarded_of_pass (h : check = none) :
    (if check.isNone then r.clip size else Region.none).contains a = true ↔
      r.start ≤ a ∧ a < r.start + r.len ∧ a < size := by
  subst h
  exact Region.contains_clip r size a

/-- A region that an earlier check leaves undefined is none (assumption 15). -/
theorem contains_guarded_of_fail (h : check ≠ none) :
    (if check.isNone then r.clip size else Region.none).contains a = false := by
  obtain ⟨report, rfl⟩ := Option.ne_none_iff_exists'.1 h
  exact Region.none_contains a

end

/-- The checks before the destination region of DECODE is defined (R140). -/
theorem decode_dst_checks_iff (s : State) :
    [srcLengthError s, srcRangeError s, dstOffError s, srcBusError s].findSome? id = none ↔
      s.srcCnt % 4 = 0 ∧ SrcInRange s ∧ (0 ≤ s.dstOff ∧ s.dstOff ≤ s.dstLen) ∧ InDmem s (srcAt s) (srcN s) := by
  rw [findSome?_id_eq_none_iff]
  simp [srcLengthError_eq_none_iff, srcRangeError_eq_none_iff, dstOffError_eq_none_iff, srcBusError_eq_none_iff]

/-- The checks before the destination region of DECODE_ALLOC is defined (R150). -/
theorem decodeAlloc_dst_checks_iff (s : State) :
    [srcLengthError s, srcRangeError s, srcBusError s].findSome? id = none ↔
      s.srcCnt % 4 = 0 ∧ SrcInRange s ∧ InDmem s (srcAt s) (srcN s) := by
  rw [findSome?_id_eq_none_iff]
  simp [srcLengthError_eq_none_iff, srcRangeError_eq_none_iff, srcBusError_eq_none_iff]

/-- Settles O20: a guarded region is the command's region clipped to DMEM when the checks before it pass, else none. -/
theorem guardedRegionsAreThoseOfTheCommand : Obligations.GuardedRegionsAreThoseOfTheCommand := by
  intro s a
  refine ⟨fun hrange => ⟨fun i hi => ?_, ?_, fun h4 hsrc => ⟨fun hlow hhigh => ?_, ?_⟩⟩, fun hrange i => ?_,
    fun hbad => ⟨?_, ?_⟩, fun hoff => ?_, Region.none_contains a, fun i hi => ?_⟩
  · have hpass := (srcRangeError_eq_none_iff s).2 hrange
    cases i with
    | encode | decode | decodeAlloc | validate => exact contains_guarded_of_pass _ _ _ hpass
    | _ => simp at hi
  · exact contains_guarded_of_pass _ _ _ ((srcRangeError_eq_none_iff s).2 hrange)
  · exact contains_guarded_of_pass _ _ _ ((decode_dst_checks_iff s).2 ⟨h4, hrange, ⟨hlow, hhigh⟩, hsrc⟩)
  · exact contains_guarded_of_pass _ _ _ ((decodeAlloc_dst_checks_iff s).2 ⟨h4, hrange, hsrc⟩)
  · have hfail := mt (srcRangeError_eq_none_iff s).1 hrange
    cases i with
    | encode => exact ⟨contains_guarded_of_fail _ _ _ hfail, contains_guarded_of_fail _ _ _ hfail⟩
    | validate => exact ⟨contains_guarded_of_fail _ _ _ hfail, Region.none_contains a⟩
    | decode =>
      exact ⟨contains_guarded_of_fail _ _ _ hfail,
        contains_guarded_of_fail _ _ _ fun hpass => hrange ((decode_dst_checks_iff s).1 hpass).2.1⟩
    | decodeAlloc =>
      exact ⟨contains_guarded_of_fail _ _ _ hfail,
        contains_guarded_of_fail _ _ _ fun hpass => hrange ((decodeAlloc_dst_checks_iff s).1 hpass).2.1⟩
    | _ => exact ⟨Region.none_contains a, Region.none_contains a⟩
  · refine contains_guarded_of_fail _ _ _ fun hpass => ?_
    obtain ⟨h4, -, -, hsrc⟩ := (decode_dst_checks_iff s).1 hpass
    exact hbad.elim (absurd h4) (absurd hsrc)
  · refine contains_guarded_of_fail _ _ _ fun hpass => ?_
    obtain ⟨h4, -, hsrc⟩ := (decodeAlloc_dst_checks_iff s).1 hpass
    exact hbad.elim (absurd h4) (absurd hsrc)
  · refine contains_guarded_of_fail _ _ _ fun hpass => ?_
    obtain ⟨-, -, hin, -⟩ := (decode_dst_checks_iff s).1 hpass
    omega
  · cases i with
    | encode | decode | decodeAlloc | validate => simp at hi
    | _ => exact ⟨Region.none_contains a, Region.none_contains a⟩

end Sys2Proof.Machine
end

section
/-! What each family of commands leaves unchanged, how it ends, and what it asks of the ports (R21, R69, R171, R180,
R216, R232, R239, R244). -/

namespace Sys2Proof.Machine

open Sys2Proof.Claims

/-! ### The parts of the state a family keeps out of -/

/-- The state but for the completion registers and the engine's place, which every command writes (R232). -/
def State.besidesCompletion (s : State) : State :=
  { s with phase := .idle, cmdWord := none, done := false, code := .ok, result := 0, info0 := 0, info1 := 0 }

/-- What lies outside an encoder command: all but the encoder, the sink and the completion. -/
def State.outsideEncoder (s : State) : State :=
  { s.besidesCompletion with enc := .fresh, sink := ⟨[], [], [], []⟩ }

/-- What lies outside a decoder command: all but the decoder, the source and the completion. -/
def State.outsideDecoder (s : State) : State :=
  { s.besidesCompletion with dec := .fresh, source := ⟨[], [], [], [], []⟩ }

/-- What lies outside a bulk, table or control command: all but DMEM, the free values drawn and the completion. -/
def State.outsideDmem (s : State) : State := { s.besidesCompletion with dmem := [], draws := 0 }

/-- What the host has written, read and will do, and the parameters: outside every command (R21). -/
def State.hostSide (s : State) : Args × Config.Params × List Input × List Nat × List HostReply × Bool :=
  (s.args, s.params, s.inputs, s.latency, s.hostLog, s.ovr)

end Sys2Proof.Machine

namespace Sys2Proof.Claims

open Sys2Proof.Machine

theorem SinkCloses.outsideEncoder_eq {sent : Nat} {s u : State} (h : SinkCloses sent s u) :
    u.outsideEncoder = s.outsideEncoder := by
  cases h <;> rfl

theorem Offers.outsideEncoder_eq {goal : EmitFor} {c : Byte} {cs : List Byte} {s u : State}
    (h : Offers goal c cs s u) : u.outsideEncoder = s.outsideEncoder := by
  induction h with
  | failed | late | wrote => rfl
  | accepted _ _ ih => exact ih
  | flushed _ hclose => exact hclose.outsideEncoder_eq

theorem Pulls.outsideDecoder_eq {goal : PullFor} {got : List Byte} {s u : State} (h : Pulls goal got s u) :
    u.outsideDecoder = s.outsideDecoder := by
  induction h with
  | failed | late | readEnds | skipEnds | cutShort | invalid | readMet | skipMet => rfl
  | character _ _ _ ih => exact ih
  | skipMore _ _ _ _ _ ih => exact ih

theorem Skips.outsideDecoder_eq {asked total left : Nat} {s u : State} (h : Skips asked total left s u) :
    u.outsideDecoder = s.outsideDecoder := by
  cases h with
  | failed | late | cutShort | exhausted | met => rfl
  | pulls _ _ _ hpulls => exact hpulls.outsideDecoder_eq

end Sys2Proof.Claims

namespace Sys2Proof.Machine

open Sys2Proof.Claims

variable {i : Instr} {s t : State}

/-! ### What a running command can do, family by family -/

/-- How an encoder command goes: it completes at once, offers a group to the sink, or closes the sink (R172-R177). -/
inductive EncoderRan (i : Instr) (s t : State) : Prop where
  | ended {u : State} {c : Code} {r i0 i1 : Word} :
      u.outsideEncoder = s.outsideEncoder → u.sink = s.sink →
      (s.enc.latchWf = true → c.isError = false → i0 = 0 ∧ i1 = 0) → t = u.finish c r i0 i1 → EncoderRan i s t
  | offers {u : State} {goal : EmitFor} {c : Byte} {cs : List Byte} :
      u.outsideEncoder = s.outsideEncoder → u.sink = s.sink → i = goal.command → (c :: cs).all sinkChar = true →
      cs.length = 3 → Offers goal c cs (offering u c) t → EncoderRan i s t
  | closes {u : State} {sent : Nat} :
      u.outsideEncoder = s.outsideEncoder → u.sink = s.sink → i = .encClose → SinkCloses sent (closingSink u) t →
      EncoderRan i s t

/-- How a decoder command goes: it completes at once, pulls a group, skips on the source, or asks for its count or its
end (R195-R216). -/
inductive DecoderRan (i : Instr) (s t : State) : Prop where
  | ended {u : State} {c : Code} {r i0 i1 : Word} :
      u.outsideDecoder = s.outsideDecoder → u.source = s.source →
      (s.dec.latchWf = true → c.isError = false → i0 = 0 ∧ i1 = 0) → t = u.finish c r i0 i1 → DecoderRan i s t
  | pulls {u : State} {goal : PullFor} :
      u.outsideDecoder = s.outsideDecoder → u.source = s.source → i = goal.command → goal.wf = true →
      Pulls goal [] (requesting u .read) t → DecoderRan i s t
  | skips {u : State} {asked total left : Nat} :
      u.outsideDecoder = s.outsideDecoder → u.source = s.source → i = .decSkip → asked = 4 * (left / 3) →
      Skips asked total left (requesting u (.skip asked)) t → DecoderRan i s t
  | avails : i = .decAvail → t = awaitAvail (requesting s .avail) → DecoderRan i s t
  | closes : i = .decClose → t = awaitSourceClose (requesting s .close) → DecoderRan i s t

/-- How a bulk, table or control command goes: it completes at once (R130-R161, R120, R234). -/
def OtherRan (s t : State) : Prop :=
  ∃ (u : State) (c : Code) (r i0 i1 : Word), u.outsideDmem = s.outsideDmem ∧ (c.isError = false → i0 = 0 ∧ i1 = 0) ∧
    t = u.finish c r i0 i1

/-- A failed adapter's latch holds an error code (R32, R33, R245). -/
theorem Encoder.latch_isError {e : Encoder} (hlatch : e.latchWf = true) (hfailed : e.mode = .failed) :
    e.latch.code.isError = true := by
  simp only [Encoder.latchWf, hfailed, Bool.and_eq_true, beq_iff_eq] at hlatch
  rw [hlatch.1]
  rfl

theorem Decoder.latch_isError {d : Decoder} (hlatch : d.latchWf = true) (hfailed : d.mode = .failed) :
    d.latch.code.isError = true := by
  simp only [Decoder.latchWf, hfailed, Bool.or_eq_true, beq_iff_eq] at hlatch
  obtain (hcode | hcode) | hcode := hlatch <;> rw [hcode] <;> rfl

/-! ### The encoder commands -/

/-- Completion with OK after a change of the encoder alone. -/
theorem encoderRan_of_finish (e : Encoder) (r : Word) : EncoderRan i s (State.finish { s with enc := e } .ok r 0 0) :=
  .ended (u := { s with enc := e }) rfl rfl (fun _ _ => ⟨rfl, rfl⟩) rfl

/-- The characters of a group offered to the sink (R174). -/
theorem encoderRan_of_emit {u : State} (goal : EmitFor) (g : TextGroup) (hrest : u.outsideEncoder = s.outsideEncoder)
    (hsink : u.sink = s.sink) (hchars : g.chars.all sinkChar = true) :
    EncoderRan goal.command s (emit goal g.chars u) :=
  .offers hrest hsink rfl hchars rfl (emit_offers goal [g.c1, g.c2, g.c3] g.c0 u)

theorem execEncWrite_ran (h : execEncWrite s = .next t) : EncoderRan .encWrite s t := by
  unfold execEncWrite at h
  split at h
  case h_1 =>
    cases h
    exact .ended rfl rfl (by simp) rfl
  case h_2 hfailed =>
    cases h
    exact .ended rfl rfl (fun hlatch hcode => by simp [Encoder.latch_isError hlatch hfailed] at hcode) rfl
  case h_3 =>
    unfold encAppend at h
    split at h <;> cases h
    · exact encoderRan_of_finish _ 0
    · exact encoderRan_of_finish _ 0
    · exact encoderRan_of_emit .write _ rfl rfl (pack3_sinkChar _ _ _)

theorem encoderRan_of_closeSink (sent : Nat) (s : State) : EncoderRan .encClose s (closeSink sent s) :=
  .closes (u := s.encEmpty) rfl rfl rfl (awaitSinkClose_sinkCloses sent s.encEmpty.issueSinkClose)

theorem execEncClose_ran (h : execEncClose s = .next t) : EncoderRan .encClose s t := by
  unfold execEncClose at h
  split at h <;> cases h
  case h_1 => exact .ended rfl rfl (fun _ _ => ⟨rfl, rfl⟩) rfl
  case h_2 hfailed =>
    exact .ended rfl rfl (fun hlatch hcode => by simp [Encoder.latch_isError hlatch hfailed] at hcode) rfl
  case h_3 =>
    unfold encFlush
    split
    · exact encoderRan_of_emit .close _ rfl rfl (pack1_sinkChar _)
    · exact encoderRan_of_emit .close _ rfl rfl (pack2_sinkChar _ _)
    · exact encoderRan_of_closeSink 0 s
    · exact encoderRan_of_closeSink 0 s

theorem exec_encoderRan (hi : i ∈ [Instr.encOpen, .encWrite, .encClose]) (h : exec i s = .next t) :
    EncoderRan i s t := by
  cases i with
  | encOpen =>
    cases h
    exact encoderRan_of_finish .fresh 0
  | encWrite => exact execEncWrite_ran h
  | encClose => exact execEncClose_ran h
  | _ => simp at hi

/-! ### The decoder commands -/

/-- Completion with OK after a change of the decoder alone. -/
theorem decoderRan_of_finish (d : Decoder) (r : Word) : DecoderRan i s (State.finish { s with dec := d } .ok r 0 0) :=
  .ended (u := { s with dec := d }) rfl rfl (fun _ _ => ⟨rfl, rfl⟩) rfl

theorem execDecRead_ran (h : execDecRead s = .next t) : DecoderRan .decRead s t := by
  unfold execDecRead at h
  split at h <;> cases h
  case h_1 => exact .ended rfl rfl (by simp) rfl
  case h_2 hfailed =>
    exact .ended rfl rfl (fun hlatch hcode => by simp [Decoder.latch_isError hlatch hfailed] at hcode) rfl
  case h_3 => exact .ended rfl rfl (fun _ _ => ⟨rfl, rfl⟩) rfl
  case h_4 =>
    unfold decReadActive
    split
    · exact decoderRan_of_finish _ _
    · exact .pulls rfl rfl rfl rfl (pullGroup_pulls .read s)

/-- Step 3 of DEC_SKIP from a state in which only the cursor has moved (R211). -/
theorem decoderRan_of_skipRest {u : State} {total left : Nat} (hrest : u.outsideDecoder = s.outsideDecoder)
    (hsource : u.source = s.source) (hleft : left ≤ 2) : DecoderRan .decSkip s (skipRest total left u) := by
  unfold skipRest
  split
  · exact .ended hrest hsource (fun _ _ => ⟨rfl, rfl⟩) rfl
  · refine .pulls hrest hsource rfl ?_ (pullGroup_pulls (.skip total left) u)
    simp only [PullFor.wf, Bool.and_eq_true, decide_eq_true_eq]
    omega

theorem decSkipActive_ran {n : Nat} (h : decSkipActive n s = .next t) : DecoderRan .decSkip s t := by
  simp only [decSkipActive, skipGroups] at h
  split at h
  · cases h
    exact decoderRan_of_finish _ _
  · split at h
    · have hskips := skips_of_awaitSkip rfl h
      exact .skips (by rfl) (by rfl) rfl rfl hskips
    · cases h
      exact decoderRan_of_skipRest (by rfl) (by rfl) (by omega)

theorem execDecSkip_ran (h : execDecSkip s = .next t) : DecoderRan .decSkip s t := by
  unfold execDecSkip at h
  split at h
  case h_1 =>
    cases h
    exact .ended rfl rfl (by simp) rfl
  case h_2 hfailed =>
    cases h
    exact .ended rfl rfl (fun hlatch hcode => by simp [Decoder.latch_isError hlatch hfailed] at hcode) rfl
  case h_3 => split at h <;> cases h <;> exact .ended rfl rfl (fun _ _ => ⟨rfl, rfl⟩) rfl
  case h_4 =>
    split at h
    · cases h
      exact .ended rfl rfl (fun _ _ => ⟨rfl, rfl⟩) rfl
    · exact decSkipActive_ran h

theorem execDecAvail_ran (h : execDecAvail s = .next t) : DecoderRan .decAvail s t := by
  unfold execDecAvail at h
  split at h <;> cases h
  case h_1 => exact .ended rfl rfl (by simp) rfl
  case h_2 hfailed =>
    exact .ended rfl rfl (fun hlatch hcode => by simp [Decoder.latch_isError hlatch hfailed] at hcode) rfl
  case h_3 => exact .ended rfl rfl (fun _ _ => ⟨rfl, rfl⟩) rfl
  case h_4 => exact .avails rfl rfl

theorem execDecClose_ran (h : execDecClose s = .next t) : DecoderRan .decClose s t := by
  unfold execDecClose at h
  split at h <;> cases h
  case h_1 => exact .ended rfl rfl (fun _ _ => ⟨rfl, rfl⟩) rfl
  case h_2 hfailed =>
    exact .ended rfl rfl (fun hlatch hcode => by simp [Decoder.latch_isError hlatch hfailed] at hcode) rfl
  case h_3 | h_4 => exact .closes rfl rfl

theorem exec_decoderRan (hi : i ∈ [Instr.decOpen, .decRead, .decSkip, .decAvail, .decClose])
    (h : exec i s = .next t) : DecoderRan i s t := by
  cases i with
  | decOpen =>
    cases h
    exact decoderRan_of_finish .fresh 0
  | decRead => exact execDecRead_ran h
  | decSkip => exact execDecSkip_ran h
  | decAvail => exact execDecAvail_ran h
  | decClose => exact execDecClose_ran h
  | _ => simp at hi

/-! ### The other commands -/

/-- The checks of the bulk commands report error codes alone (R131, R140, R150). -/
def ReportsError (check : Option Report) : Prop := ∀ r, check = some r → r.code.isError = true

theorem reportsError_findSome? {checks : List (Option Report)} (hall : ∀ check ∈ checks, ReportsError check) :
    ReportsError (checks.findSome? id) := by
  intro r hr
  obtain ⟨check, hmem, hcheck⟩ := List.exists_of_findSome?_eq_some hr
  exact hall check hmem r hcheck

theorem srcLengthError_reportsError (s : State) : ReportsError (srcLengthError s) := fun r hr => by
  rw [srcLengthError_code hr]
  rfl

theorem srcRangeError_reportsError (s : State) : ReportsError (srcRangeError s) := fun r hr => by
  rw [srcRangeError_code hr]
  rfl

theorem srcBusError_reportsError (s : State) : ReportsError (srcBusError s) := fun r hr => by
  rw [srcBusError_code hr]
  rfl

theorem dstRegionError_reportsError (s : State) (src dst : Region) : ReportsError (dstRegionError s src dst) :=
  fun r hr => by obtain hcode | hcode := dstRegionError_code hr <;> rw [hcode] <;> rfl

theorem dstOffError_reportsError (s : State) : ReportsError (dstOffError s) := by
  intro r hr
  unfold dstOffError at hr
  split at hr <;> cases hr
  rfl

theorem capacityError_reportsError (s : State) : ReportsError (capacityError s) := by
  intro r hr
  unfold capacityError at hr
  split at hr <;> cases hr
  rfl

theorem encodeError_reportsError (s : State) : ReportsError (encodeError s) := by
  rw [encodeError_eq_findSome?]
  exact reportsError_findSome? (by
    simp [srcRangeError_reportsError, srcBusError_reportsError, dstRegionError_reportsError])

theorem decodeError_reportsError (s : State) : ReportsError (decodeError s) :=
  reportsError_findSome? (by
    simp [srcLengthError_reportsError, srcRangeError_reportsError, dstOffError_reportsError, srcBusError_reportsError,
      capacityError_reportsError, dstRegionError_reportsError])

theorem decodeAllocError_reportsError (s : State) : ReportsError (decodeAllocError s) :=
  reportsError_findSome? (by
    simp [srcLengthError_reportsError, srcRangeError_reportsError, srcBusError_reportsError,
      dstRegionError_reportsError])

theorem otherRan_of_report {check : Option Report} {r : Report} (hchecks : ReportsError check) (hr : check = some r) :
    OtherRan s (s.report r) :=
  ⟨s, r.code, 0, r.info0, r.info1, rfl, fun hcode => by simp [hchecks r hr] at hcode, rfl⟩

theorem otherRan_of_ok {u : State} (hrest : u.outsideDmem = s.outsideDmem) (r : Word) :
    OtherRan s (u.finish .ok r 0 0) :=
  ⟨u, .ok, r, 0, 0, hrest, fun _ => ⟨rfl, rfl⟩, rfl⟩

theorem decodeInto_ran {dst : Region} (h : decodeInto s dst = .next t) : OtherRan s t := by
  unfold decodeInto at h
  split at h <;> cases h
  · exact ⟨s.scramble dst, .invalidCharacter, 0, _, _, rfl, by simp [Code.isError], rfl⟩
  · exact otherRan_of_ok (by rfl) _

theorem execEncode_ran (h : execEncode s = .next t) : OtherRan s t := by
  unfold execEncode at h
  split at h <;> cases h
  · exact otherRan_of_report (encodeError_reportsError s) ‹_›
  · exact otherRan_of_ok (by rfl) _

theorem execDecode_ran (h : execDecode s = .next t) : OtherRan s t := by
  unfold execDecode at h
  split at h
  · cases h
    exact otherRan_of_report (decodeError_reportsError s) ‹_›
  · exact decodeInto_ran h

theorem execDecodeAlloc_ran (h : execDecodeAlloc s = .next t) : OtherRan s t := by
  unfold execDecodeAlloc at h
  split at h
  · cases h
    exact otherRan_of_report (decodeAllocError_reportsError s) ‹_›
  · exact decodeInto_ran h

theorem execTblAlpha_ran (h : execTblAlpha s = .next t) : OtherRan s t := by
  unfold execTblAlpha at h
  split at h <;> cases h
  · exact ⟨s, .invalidRange, 0, _, _, rfl, by simp [Code.isError], rfl⟩
  · exact otherRan_of_ok (by rfl) _

theorem execTblInv_ran (h : execTblInv s = .next t) : OtherRan s t := by
  unfold execTblInv at h
  split at h <;> cases h <;> exact otherRan_of_ok (by rfl) _

theorem exec_otherRan (hi : i ∈ [Instr.nop, .encode, .decode, .decodeAlloc, .validate, .tblAlpha, .tblInv])
    (h : exec i s = .next t) : OtherRan s t := by
  cases i with
  | nop | validate =>
    cases h
    exact otherRan_of_ok (by rfl) _
  | encode => exact execEncode_ran h
  | decode => exact execDecode_ran h
  | decodeAlloc => exact execDecodeAlloc_ran h
  | tblAlpha => exact execTblAlpha_ran h
  | tblInv => exact execTblInv_ran h
  | _ => simp at hi

/-- Every command is of one of the three families. -/
theorem exec_ran (h : exec i s = .next t) :
    (i ∈ [Instr.encOpen, .encWrite, .encClose] ∧ EncoderRan i s t) ∨
      (i ∈ [Instr.decOpen, .decRead, .decSkip, .decAvail, .decClose] ∧ DecoderRan i s t) ∨
      (i ∈ [Instr.nop, .encode, .decode, .decodeAlloc, .validate, .tblAlpha, .tblInv] ∧ OtherRan s t) := by
  cases i with
  | encOpen | encWrite | encClose => exact .inl ⟨by simp, exec_encoderRan (by simp) h⟩
  | decOpen | decRead | decSkip | decAvail | decClose => exact .inr (.inl ⟨by simp, exec_decoderRan (by simp) h⟩)
  | _ => exact .inr (.inr ⟨by simp, exec_otherRan (by simp) h⟩)

/-! ### What each family leaves unchanged (R21, R69, R180, R216, R244) -/

theorem EncoderRan.outsideEncoder_eq (h : EncoderRan i s t) : t.outsideEncoder = s.outsideEncoder := by
  cases h with
  | ended hrest _ _ ht => exact ht ▸ hrest
  | offers hrest _ _ _ _ hoffers => exact hoffers.outsideEncoder_eq.trans hrest
  | closes hrest _ _ hcloses => exact hcloses.outsideEncoder_eq.trans hrest

theorem awaitAvail_outsideDecoder (s : State) : (awaitAvail s).outsideDecoder = s.outsideDecoder := by
  unfold awaitAvail
  split
  · rename_i a _ _
    cases a <;> rfl
  · rfl

theorem awaitSourceClose_outsideDecoder (s : State) : (awaitSourceClose s).outsideDecoder = s.outsideDecoder := by
  unfold awaitSourceClose
  split
  · rename_i a _ _
    cases a <;> rfl
  · rfl

theorem DecoderRan.outsideDecoder_eq (h : DecoderRan i s t) : t.outsideDecoder = s.outsideDecoder := by
  cases h with
  | ended hrest _ _ ht => exact ht ▸ hrest
  | pulls hrest _ _ _ hpulls => exact hpulls.outsideDecoder_eq.trans hrest
  | skips hrest _ _ _ hskips => exact hskips.outsideDecoder_eq.trans hrest
  | avails _ ht => exact ht ▸ awaitAvail_outsideDecoder (requesting s .avail)
  | closes _ ht => exact ht ▸ awaitSourceClose_outsideDecoder (requesting s .close)

theorem OtherRan.outsideDmem_eq (h : OtherRan s t) : t.outsideDmem = s.outsideDmem := by
  obtain ⟨u, _, _, _, _, hrest, -, rfl⟩ := h
  exact hrest

/-- No command writes the host's side of the machine (R21, R36). -/
theorem exec_hostSide (h : exec i s = .next t) : t.hostSide = s.hostSide := by
  obtain ⟨-, hran⟩ | ⟨-, hran⟩ | ⟨-, hran⟩ := exec_ran h
  · exact (congrArg State.hostSide hran.outsideEncoder_eq :)
  · exact (congrArg State.hostSide hran.outsideDecoder_eq :)
  · exact (congrArg State.hostSide hran.outsideDmem_eq :)

/-- Settles O52: the host's side of the machine lies outside every family. -/
theorem commandsNeverWriteArguments : Obligations.CommandsNeverWriteArguments := by
  intro i s t h
  have hside := exec_hostSide h
  simp only [State.hostSide, Prod.mk.injEq] at hside
  exact hside

/-- Settles O53: what a family leaves unchanged, read field by field. -/
theorem commandFamiliesStaySeparate : Obligations.CommandFamiliesStaySeparate := by
  refine fun i s t h => ⟨fun hi => ?_, fun hi => ?_, fun hi => ?_, fun hi => ?_⟩
  · have hrest := (exec_encoderRan hi h).outsideEncoder_eq
    exact ⟨(congrArg State.dmem hrest :), (congrArg State.dec hrest :), (congrArg State.source hrest :)⟩
  · have hrest := (exec_decoderRan hi h).outsideDecoder_eq
    exact ⟨(congrArg State.dmem hrest :), (congrArg State.enc hrest :), (congrArg State.sink hrest :)⟩
  · have hrest := (exec_otherRan hi h).outsideDmem_eq
    exact ⟨(congrArg State.enc hrest :), (congrArg State.dec hrest :), (congrArg State.sink hrest :),
      (congrArg State.source hrest :)⟩
  · refine exec_dmem_eq ?_ h
    cases i with
    | encode | decode | decodeAlloc => simp at hi
    | _ => rfl

/-! ### Completion or a wait (R232, R239) -/

/-- The command has completed: BUSY 0, no word latched, DONE 1, RESULT 0 with an error code, INFO0 and INFO1 0 with an
informational one (R232). -/
def Ended (t : State) : Prop :=
  t.phase = .idle ∧ t.cmdWord = none ∧ t.done = true ∧ (t.code.isError = true → t.result = 0) ∧
    (t.code.isError = false → t.info0 = 0 ∧ t.info1 = 0)

theorem ended_finish {u : State} {c : Code} {r i0 i1 : Word} (hinfo : c.isError = false → i0 = 0 ∧ i1 = 0) :
    Ended (u.finish c r i0 i1) :=
  ⟨rfl, rfl, rfl, fun hcode => if_pos hcode, hinfo⟩

theorem ended_ok (u : State) (r : Word) : Ended (completed u .ok r 0 0) :=
  ⟨rfl, rfl, rfl, by simp [completed, Code.isError], fun _ => ⟨rfl, rfl⟩⟩

theorem ended_endOfInput (u : State) (r : Word) : Ended (completed u .endOfInput r 0 0) :=
  ⟨rfl, rfl, rfl, by simp [completed, Code.isError], fun _ => ⟨rfl, rfl⟩⟩

theorem ended_error {u : State} {c : Code} (i0 i1 : Word) (hcode : c.isError = true) :
    Ended (completed u c 0 i0 i1) :=
  ⟨rfl, rfl, rfl, fun _ => rfl, fun hinfo => by simp [completed, hcode] at hinfo⟩

theorem ended_or_waiting_of_sinkCloses {sent : Nat} (h : SinkCloses sent s t) : Ended t ∨ t.phase.waiting = true := by
  cases h with
  | closed => exact .inl (ended_ok _ _)
  | failed => exact .inl (ended_error _ _ rfl)
  | late => exact .inr rfl

theorem ended_or_waiting_of_offers {goal : EmitFor} {c : Byte} {cs : List Byte} (h : Offers goal c cs s t) :
    Ended t ∨ t.phase.waiting = true := by
  induction h with
  | failed => exact .inl (ended_error _ _ rfl)
  | late => exact .inr rfl
  | accepted _ _ ih => exact ih
  | wrote => exact .inl (ended_ok _ _)
  | flushed _ hclose => exact ended_or_waiting_of_sinkCloses hclose

theorem ended_or_waiting_of_pulls {goal : PullFor} {got : List Byte} (h : Pulls goal got s t) :
    Ended t ∨ t.phase.waiting = true := by
  induction h with
  | failed | cutShort | invalid => exact .inl (ended_error _ _ rfl)
  | late => exact .inr rfl
  | readEnds => exact .inl (ended_endOfInput _ _)
  | skipEnds | readMet | skipMet => exact .inl (ended_ok _ _)
  | character _ _ _ ih => exact ih
  | skipMore _ _ _ _ _ ih => exact ih

theorem ended_or_waiting_of_skips {asked total left : Nat} (h : Skips asked total left s t) :
    Ended t ∨ t.phase.waiting = true := by
  cases h with
  | failed | cutShort => exact .inl (ended_error _ _ rfl)
  | late => exact .inr rfl
  | exhausted | met => exact .inl (ended_ok _ _)
  | pulls _ _ _ hpulls => exact ended_or_waiting_of_pulls hpulls

theorem ended_or_waiting_awaitAvail (s : State) : Ended (awaitAvail s) ∨ (awaitAvail s).phase.waiting = true := by
  unfold awaitAvail
  split
  · rename_i a _ _
    cases a with
    | count n => exact .inl (ended_finish fun _ => ⟨rfl, rfl⟩)
    | err info => exact .inl (ended_error _ _ rfl)
  · exact .inr rfl

theorem ended_or_waiting_awaitSourceClose (s : State) :
    Ended (awaitSourceClose s) ∨ (awaitSourceClose s).phase.waiting = true := by
  unfold awaitSourceClose
  split
  · rename_i a _ _
    cases a with
    | ack => exact .inl (ended_finish fun _ => ⟨rfl, rfl⟩)
    | err info => exact .inl (ended_error _ _ rfl)
  · exact .inr rfl

/-- The six commands that can wait for a port (R239). -/
def portCommands : List Instr := [.encWrite, .encClose, .decRead, .decSkip, .decAvail, .decClose]

theorem EncoderRan.ended_or_waiting (h : EncoderRan i s t) (hlatch : s.enc.latchWf = true) :
    Ended t ∨ t.phase.waiting = true ∧ i ∈ portCommands := by
  cases h with
  | ended _ _ hinfo ht => exact .inl (ht ▸ ended_finish (hinfo hlatch))
  | @offers _ goal _ _ _ _ hi _ _ hoffers =>
    refine (ended_or_waiting_of_offers hoffers).imp_right fun hwait => ⟨hwait, ?_⟩
    cases goal <;> simp [hi, EmitFor.command, portCommands]
  | closes _ _ hi hcloses =>
    exact (ended_or_waiting_of_sinkCloses hcloses).imp_right fun hwait => ⟨hwait, by simp [hi, portCommands]⟩

theorem DecoderRan.ended_or_waiting (h : DecoderRan i s t) (hlatch : s.dec.latchWf = true) :
    Ended t ∨ t.phase.waiting = true ∧ i ∈ portCommands := by
  cases h with
  | ended _ _ hinfo ht => exact .inl (ht ▸ ended_finish (hinfo hlatch))
  | @pulls _ goal _ _ hi _ hpulls =>
    refine (ended_or_waiting_of_pulls hpulls).imp_right fun hwait => ⟨hwait, ?_⟩
    cases goal <;> simp [hi, PullFor.command, portCommands]
  | skips _ _ hi _ hskips =>
    exact (ended_or_waiting_of_skips hskips).imp_right fun hwait => ⟨hwait, by simp [hi, portCommands]⟩
  | avails hi ht =>
    subst ht
    exact (ended_or_waiting_awaitAvail _).imp_right fun hwait => ⟨hwait, by simp [hi, portCommands]⟩
  | closes hi ht =>
    subst ht
    exact (ended_or_waiting_awaitSourceClose _).imp_right fun hwait => ⟨hwait, by simp [hi, portCommands]⟩

/-- Settles O54: the ways a command goes are completions and waits of the six port commands. -/
theorem commandsCompleteOrWaitForAPort : Obligations.CommandsCompleteOrWaitForAPort := by
  intro i s t henc hdec h
  obtain ⟨-, hran⟩ | ⟨-, hran⟩ | ⟨-, u, c, r, i0, i1, -, hinfo, rfl⟩ := exec_ran h
  · exact hran.ended_or_waiting henc
  · exact hran.ended_or_waiting hdec
  · exact .inl (ended_finish hinfo)

/-! ### How many requests (R239) -/

theorem requests_offering (s : State) (c : Byte) : (offering s c).requests = s.requests + 1 := by
  simp only [State.requests, offering, List.length_append, List.length_singleton]
  omega

theorem requests_closingSink (s : State) : (closingSink s).requests = s.requests + 1 := by
  simp only [State.requests, closingSink, List.length_append, List.length_singleton]
  omega

theorem requests_requesting (s : State) (r : SrcReq) : (requesting s r).requests = s.requests + 1 := by
  simp only [State.requests, requesting, List.length_append, List.length_singleton]
  omega

theorem requests_of_sinkCloses {sent : Nat} (h : SinkCloses sent s t) : t.requests = s.requests := by
  cases h <;> rfl

/-- One request for each character still to offer, and one to close. -/
theorem requests_of_offers {goal : EmitFor} {c : Byte} {cs : List Byte} (h : Offers goal c cs s t) :
    s.requests ≤ t.requests ∧ t.requests ≤ s.requests + cs.length + 1 := by
  have kept {s u : State} (n : Nat) (hu : u.requests = s.requests) :
      s.requests ≤ u.requests ∧ u.requests ≤ s.requests + n + 1 := by omega
  induction h with
  | failed | late | wrote => exact kept _ rfl
  | @accepted goal c d cs s u q _ _ ih =>
    have hoffered : (offering (accepting s c q) d).requests = s.requests + 1 := requests_offering _ _
    rw [hoffered] at ih
    simp only [List.length_cons]
    omega
  | @flushed c s u q _ hclose =>
    have hclosing : (closingSink (encEmptied (accepting s c q) s.enc.mode)).requests = s.requests + 1 :=
      requests_closingSink _
    rw [requests_of_sinkCloses hclose, hclosing]
    exact ⟨Nat.le_succ _, le_rfl⟩

/-- How many groups a pull may read after the one it is at: each group that is too short leaves fewer bytes (R211). -/
def PullFor.moreGroups : PullFor → Nat
  | .read => 0
  | .skip _ left => left - 1

/-- One request for each character of the group still to come, and four for each group after it. -/
theorem requests_of_pulls {goal : PullFor} {got : List Byte} (h : Pulls goal got s t) :
    s.requests ≤ t.requests ∧ t.requests ≤ s.requests + (3 - got.length) + 4 * goal.moreGroups := by
  have kept {s u : State} (n m : Nat) (hu : u.requests = s.requests) :
      s.requests ≤ u.requests ∧ u.requests ≤ s.requests + n + m := by omega
  induction h with
  | failed | late | readEnds | skipEnds | cutShort | invalid | readMet | skipMet => exact kept _ _ rfl
  | @character goal got c s u q _ hgot _ ih =>
    have hasked : (requesting (readAnswersLeft s q) .read).requests = s.requests + 1 := requests_requesting _ _
    rw [hasked, List.length_append, List.length_singleton] at ih
    omega
  | @skipMore total left got c g b v s u q _ _ hdecode hshort _ ih =>
    have hasked : (requesting (decLoaded (readAnswersLeft s q) b v v) .read).requests = s.requests + 1 :=
      requests_requesting _ _
    obtain ⟨hpos, -⟩ := groupDecode_valid_range hdecode
    rw [hasked, List.length_nil] at ih
    simp only [PullFor.moreGroups] at ih ⊢
    omega

/-- After the answer to SrcSkip, at most two groups are read for the one or two bytes left (R207, R211). -/
theorem requests_of_skips {asked total left : Nat} (hasked : asked = 4 * (left / 3)) (h : Skips asked total left s t) :
    s.requests ≤ t.requests ∧ t.requests ≤ s.requests + 8 := by
  have kept {u : State} (hu : u.requests = s.requests) : s.requests ≤ u.requests ∧ u.requests ≤ s.requests + 8 := by
    omega
  cases h with
  | failed | late | cutShort | exhausted | met => exact kept rfl
  | @pulls w q u _ _ hmore hpulls =>
    have hread : (requesting (skipAnswersLeft s q) .read).requests = s.requests + 1 := requests_requesting _ _
    have hbound := requests_of_pulls hpulls
    rw [hread, List.length_nil] at hbound
    simp only [PullFor.moreGroups] at hbound
    omega

theorem requests_awaitAvail (s : State) : (awaitAvail s).requests = s.requests := by
  unfold awaitAvail
  split
  · rename_i a _ _
    cases a <;> rfl
  · rfl

theorem requests_awaitSourceClose (s : State) : (awaitSourceClose s).requests = s.requests := by
  unfold awaitSourceClose
  split
  · rename_i a _ _
    cases a <;> rfl
  · rfl

/-- How many requests an encoder command issues (R239). -/
theorem EncoderRan.requests (h : EncoderRan i s t) :
    s.requests ≤ t.requests ∧ t.requests ≤ s.requests + 5 ∧
      (i ∉ [Instr.encWrite, .encClose] → t.requests = s.requests) := by
  have before {u : State} (hrest : u.outsideEncoder = s.outsideEncoder) (hsink : u.sink = s.sink) :
      u.requests = s.requests := by
    have hsource : u.source = s.source := (congrArg State.source hrest :)
    simp only [State.requests, hsink, hsource]
  cases h with
  | ended hrest hsink _ ht =>
    have hu := before hrest hsink
    subst ht
    exact ⟨hu.ge, hu.le.trans (Nat.le_add_right _ _), fun _ => hu⟩
  | @offers u goal c cs hrest hsink hi _ hlen hoffers =>
    have hbound := requests_of_offers hoffers
    rw [requests_offering, before hrest hsink, hlen] at hbound
    refine ⟨by omega, by omega, fun hno => absurd ?_ hno⟩
    cases goal <;> simp [hi, EmitFor.command]
  | @closes u sent hrest hsink hi hcloses =>
    have hbound := requests_of_sinkCloses hcloses
    rw [requests_closingSink, before hrest hsink] at hbound
    exact ⟨by omega, by omega, fun hno => absurd (by simp [hi]) hno⟩

/-- How many requests a decoder command issues (R239). -/
theorem DecoderRan.requests (h : DecoderRan i s t) :
    s.requests ≤ t.requests ∧ (i = .decRead → t.requests ≤ s.requests + 4) ∧
      (i = .decSkip → t.requests ≤ s.requests + 9) ∧
      (i ∈ [Instr.decAvail, .decClose] → t.requests ≤ s.requests + 1) ∧
      (i ∉ [Instr.decRead, .decSkip, .decAvail, .decClose] → t.requests = s.requests) := by
  have before {u : State} (hrest : u.outsideDecoder = s.outsideDecoder) (hsource : u.source = s.source) :
      u.requests = s.requests := by
    have hsink : u.sink = s.sink := (congrArg State.sink hrest :)
    simp only [State.requests, hsink, hsource]
  cases h with
  | @ended u c r i0 i1 hrest hsource _ ht =>
    have hu := before hrest hsource
    have ht' : t.requests = s.requests := by
      subst ht
      exact hu
    simp only [ht', le_refl, Nat.le_add_right, implies_true, and_self]
  | @pulls u goal hrest hsource hi hgoal hpulls =>
    have hbound := requests_of_pulls hpulls
    rw [requests_requesting, before hrest hsource, List.length_nil] at hbound
    cases goal with
    | read =>
      simp only [PullFor.command] at hi
      subst hi
      simp only [PullFor.moreGroups] at hbound
      simp
      omega
    | skip total left =>
      simp only [PullFor.command] at hi
      subst hi
      simp only [PullFor.wf, Bool.and_eq_true, decide_eq_true_eq] at hgoal
      simp only [PullFor.moreGroups] at hbound
      simp
      omega
  | @skips u asked total left hrest hsource hi hasked hskips =>
    have hbound := requests_of_skips hasked hskips
    rw [requests_requesting, before hrest hsource] at hbound
    subst hi
    simp
    omega
  | avails hi ht =>
    have hbound : t.requests = s.requests + 1 := by rw [ht, requests_awaitAvail, requests_requesting]
    subst hi
    simp [hbound]
  | closes hi ht =>
    have hbound : t.requests = s.requests + 1 := by rw [ht, requests_awaitSourceClose, requests_requesting]
    subst hi
    simp [hbound]

theorem OtherRan.requests (h : OtherRan s t) : t.requests = s.requests := by
  have hsink : t.sink = s.sink := (congrArg State.sink h.outsideDmem_eq :)
  have hsource : t.source = s.source := (congrArg State.source h.outsideDmem_eq :)
  simp only [State.requests, hsink, hsource]

/-- Settles O55: the bound of each way a command goes. -/
theorem portRequestsAreBounded : Obligations.PortRequestsAreBounded := by
  intro i s t h
  obtain ⟨hi, hran⟩ | ⟨hi, hran⟩ | ⟨hi, hran⟩ := exec_ran h
  · obtain ⟨hlow, hhigh, hnone⟩ := hran.requests
    simp only [List.mem_cons, List.not_mem_nil, or_false] at hi
    rcases hi with rfl | rfl | rfl <;> simp_all
  · obtain ⟨hlow, hread, hskip, hone, hnone⟩ := hran.requests
    simp only [List.mem_cons, List.not_mem_nil, or_false] at hi
    rcases hi with rfl | rfl | rfl | rfl | rfl <;> simp_all
  · have hnone := hran.requests
    simp only [List.mem_cons, List.not_mem_nil, or_false] at hi
    rcases hi with rfl | rfl | rfl | rfl | rfl | rfl | rfl <;> simp [hnone]

/-! ### What the sink sees in a step (R171) -/

/-- The sink has been offered characters of the alphabet and pads, and then at most one close. -/
def SinkOffered (s t : State) : Prop :=
  ∃ cs : List Byte, cs.all sinkChar = true ∧
    (t.sink.log = s.sink.log ++ cs.map SinkReq.put ∨ t.sink.log = s.sink.log ++ cs.map SinkReq.put ++ [.close])

theorem sinkOffered_of_log_eq (h : t.sink.log = s.sink.log) : SinkOffered s t := ⟨[], rfl, .inl (by simp [h])⟩

theorem sinkOffered_of_sink_eq (h : t.sink = s.sink) : SinkOffered s t := sinkOffered_of_log_eq (by rw [h])

/-- A character offered first. -/
theorem SinkOffered.cons {u : State} {c : Byte} (h : SinkOffered u t) (hc : sinkChar c = true)
    (hu : u.sink.log = s.sink.log ++ [.put c]) : SinkOffered s t := by
  obtain ⟨cs, hcs, hlog⟩ := h
  refine ⟨c :: cs, by simp [hc, hcs], ?_⟩
  simpa [hu] using hlog

theorem sinkLog_of_sinkCloses {sent : Nat} (h : SinkCloses sent s t) : t.sink.log = s.sink.log := by
  cases h <;> rfl

theorem sinkOffered_of_offers {goal : EmitFor} {c : Byte} {cs : List Byte} (hcs : cs.all sinkChar = true)
    (h : Offers goal c cs s t) : SinkOffered s t := by
  induction h with
  | failed | late | wrote => exact sinkOffered_of_log_eq rfl
  | accepted _ _ ih =>
    simp only [List.all_cons, Bool.and_eq_true] at hcs
    exact (ih hcs.2).cons hcs.1 rfl
  | flushed _ hclose =>
    exact ⟨[], rfl, .inr (by simp [sinkLog_of_sinkCloses hclose, closingSink, encEmptied, accepting])⟩

theorem EncoderRan.sinkOffered (h : EncoderRan i s t) : SinkOffered s t := by
  cases h with
  | ended _ hsink _ ht => exact sinkOffered_of_sink_eq (ht ▸ hsink)
  | offers _ hsink _ hcs _ hoffers =>
    simp only [List.all_cons, Bool.and_eq_true] at hcs
    exact (sinkOffered_of_offers hcs.2 hoffers).cons hcs.1 (by simp [offering, hsink])
  | closes _ hsink _ hcloses =>
    exact ⟨[], rfl, .inr (by simp [sinkLog_of_sinkCloses hcloses, closingSink, hsink])⟩

theorem exec_sinkOffered (h : exec i s = .next t) : SinkOffered s t := by
  obtain ⟨-, hran⟩ | ⟨-, hran⟩ | ⟨-, hran⟩ := exec_ran h
  · exact hran.sinkOffered
  · exact sinkOffered_of_sink_eq (congrArg State.sink hran.outsideDecoder_eq :)
  · exact sinkOffered_of_sink_eq (congrArg State.sink hran.outsideDmem_eq :)

theorem runCommand_sinkOffered {w : Word} (h : runCommand w s = .next t) : SinkOffered s t := by
  unfold runCommand at h
  split at h
  · exact exec_sinkOffered h
  · cases h
    exact sinkOffered_of_log_eq rfl

theorem startCommand_sinkOffered {w : Word} (h : startCommand w s = .next t) : SinkOffered s t := by
  unfold startCommand at h
  split at h
  · exact (runCommand_sinkOffered h :)
  · exact (runCommand_sinkOffered h :)
  · cases h
    exact sinkOffered_of_log_eq rfl

theorem runAccepted_sinkOffered {dst : Region} {broken : Bool} (h : runAccepted dst broken s = .next t) :
    SinkOffered s t := by
  unfold runAccepted at h
  split at h
  · cases h
    exact sinkOffered_of_log_eq rfl
  · split at h
    · exact (runCommand_sinkOffered h :)
    · cases h
      exact sinkOffered_of_log_eq rfl

theorem tick_sinkOffered (hwf : Phase.wf s) (h : tick s = .next t) : SinkOffered s t := by
  unfold Phase.wf at hwf
  cases hphase : s.phase with
  | idle | running =>
    simp only [tick, hphase] at h
    cases h
    exact sinkOffered_of_log_eq rfl
  | accepted n src dst broken =>
    simp only [tick, hphase] at h
    split at h
    · exact runAccepted_sinkOffered h
    · cases h
      exact sinkOffered_of_log_eq rfl
  | putting c rest goal =>
    simp only [tick, hphase] at h hwf
    obtain ⟨-, -, hcs, -⟩ := hwf
    simp only [List.all_cons, Bool.and_eq_true] at hcs
    cases h
    exact (sinkOffered_of_offers hcs.2 (awaitPut_offers (s := s.withPutAnswers (elapse s.sink.putAnswers)) hphase) :)
  | closingSink sent =>
    simp only [tick, hphase] at h
    cases h
    have hcloses := awaitSinkClose_sinkCloses sent (s.withSinkCloseAnswers (elapse s.sink.closeAnswers))
    exact sinkOffered_of_log_eq (sinkLog_of_sinkCloses hcloses :)
  | pulling got goal =>
    simp only [tick, hphase] at h hwf
    obtain ⟨-, -, hgot, -⟩ := hwf
    cases h
    exact sinkOffered_of_sink_eq (congrArg State.sink (pullOn_pulls _ got goal s hgot).outsideDecoder_eq :)
  | skipping chars total left =>
    simp only [tick, hphase] at h hwf
    obtain ⟨-, -, -, hchars⟩ := hwf
    exact sinkOffered_of_sink_eq (congrArg State.sink (skips_of_awaitSkip hchars h).outsideDecoder_eq :)
  | availing =>
    simp only [tick, hphase] at h
    cases h
    exact sinkOffered_of_sink_eq (congrArg State.sink (awaitAvail_outsideDecoder (s.withAvailAnswers _)) :)
  | closingSource =>
    simp only [tick, hphase] at h
    cases h
    exact sinkOffered_of_sink_eq (congrArg State.sink (awaitSourceClose_outsideDecoder (s.withSrcCloseAnswers _)) :)

/-- Settles O42: the host's accesses leave the sink alone, and a command offers it what EncEmit and the close do. -/
theorem sinkSeesOnlyAlphabetAndPad : Obligations.SinkSeesOnlyAlphabetAndPad := by
  intro s t hinv h
  obtain ⟨u, hframe, hadvance⟩ | ⟨rest, -, rfl⟩ | ⟨w, rest, -, -, hstart⟩ := step_cases h
  · rw [advance_next] at hadvance
    split at hadvance
    · have hoffered := tick_sinkOffered (hframe.phaseWf hinv.phaseWf) hadvance
      unfold SinkOffered at hoffered
      rwa [hframe.sink] at hoffered
    · cases hadvance
      exact sinkOffered_of_sink_eq hframe.sink
  · exact sinkOffered_of_log_eq rfl
  · exact (startCommand_sinkOffered hstart :)

end Sys2Proof.Machine
end

section
/-! DECODE and DECODE_ALLOC with their checks in order (R140-R150), the text group by group (R143), and the bulk round
trip. -/

namespace Sys2Proof.Machine

open Sys2Proof.Claims

/-- Settles O2: the round trip of the opcode map, and an encoded command is legal because it decodes. -/
theorem decodeOfEncodeIsTheCommand : Obligations.DecodeOfEncodeIsTheCommand := by
  intro i _
  cases i <;> exact ⟨rfl, rfl⟩

/-! ### The checks of DECODE and DECODE_ALLOC -/

theorem srcLengthError_of_not_multiple {s : State} (h : s.srcCnt % 4 ≠ 0) :
    srcLengthError s = some ⟨.invalidLength, s.args.srcCnt, 0⟩ := if_pos h

theorem dstOffError_of_offset {s : State} (h : s.dstOff < 0 ∨ s.dstLen < s.dstOff) :
    dstOffError s = some ⟨.invalidRange, s.args.dstOff, 2⟩ := if_pos h

theorem capacityError_of_lt {s : State} (h : capacity s < decodedN s) :
    capacityError s = some ⟨.bufferTooSmall, BitVec.ofNat 32 (decodedN s), BitVec.ofNat 32 (capacity s)⟩ := if_pos h

/-- A failing check ends DECODE with its report and changes nothing else. -/
theorem exec_decode_of_error {s : State} {r : Report} (h : decodeError s = some r) :
    exec .decode s = .next (completed s r.code 0 r.info0 r.info1) := by
  rw [← State.report_eq_completed]
  simp [exec, execDecode, h]

/-- A failing check ends DECODE_ALLOC with its report and changes nothing else. -/
theorem exec_decodeAlloc_of_error {s : State} {r : Report} (h : decodeAllocError s = some r) :
    exec .decodeAlloc s = .next (completed s r.code 0 r.info0 r.info1) := by
  rw [← State.report_eq_completed]
  simp [exec, execDecodeAlloc, h]

/-- The checks of R140 in order, the regions written out. -/
theorem decodeError_eq_findSome? (s : State) :
    decodeError s =
      [srcLengthError s, srcRangeError s, dstOffError s, srcBusError s, capacityError s,
        dstRegionError s ⟨srcAt s, srcN s⟩ ⟨dstAt s, decodedN s⟩].findSome? id := by
  rw [decodeError, srcRegion_eq, decodeDst_eq]

/-- The checks of R150 in order, the regions written out. -/
theorem decodeAllocError_eq_findSome? (s : State) :
    decodeAllocError s =
      [srcLengthError s, srcRangeError s, srcBusError s,
        dstRegionError s ⟨srcAt s, srcN s⟩ ⟨s.dstBase, decodedN s⟩].findSome? id := by
  rw [decodeAllocError, srcRegion_eq, decodeAllocDst_eq]

/-- Past its checks, DECODE or DECODE_ALLOC stores a text that decodes, and leaves free values for another (R143,
R144). -/
theorem decodeInto_stores {s : State} (hwf : Memory.wf s.dmem = true) (hcnt : s.srcCnt % 4 = 0) (d : Nat) :
    (∀ bytes, decodeText 0 (srcData s) = .ok bytes →
      ∃ m, decodeInto s ⟨d, decodedN s⟩ =
          .next (completed { s with dmem := m } .ok (BitVec.ofNat 32 (decodedN s)) 0 0) ∧
        bytes.length = decodedN s ∧ Stored s.dmem m d bytes) ∧
    (∀ code index, decodeText 0 (srcData s) = .err code index →
      ∃ m, decodeInto s ⟨d, decodedN s⟩ =
          .next (completed { s with dmem := m, draws := s.draws + decodedN s } .invalidCharacter 0 (code.setWidth 32)
            (BitVec.ofNat 32 index)) ∧
        Stored s.dmem m d (freeBytes s.draws (decodedN s))) :=
  ⟨fun _ htext => decodeInto_of_ok ⟨d, decodedN s⟩ htext hwf (decodeText_src_length s hcnt htext),
    fun _ _ htext => decodeInto_of_err ⟨d, decodedN s⟩ htext hwf⟩

/-- Settles O30: each outcome is the first failing entry of the list of checks, or what decoding the text leaves. -/
theorem decodeFollowsItsRule : Obligations.DecodeFollowsItsRule := by
  rintro s _ cap hwf rfl hcapacity
  obtain rfl : cap = capacity s := hcapacity
  have checks := decodeError_eq_findSome? s
  refine ⟨fun hcnt => ?_, fun hcnt => ?_⟩
  · rw [srcLengthError_of_not_multiple hcnt] at checks
    exact exec_decode_of_error checks
  have hlength := (srcLengthError_eq_none_iff s).2 hcnt
  refine ⟨fun hoff => ?_, fun hlow hhigh hrange => ?_, fun hrange => ?_⟩
  · rw [hlength, srcRangeError_of_offset hoff] at checks
    exact exec_decode_of_error checks
  · rw [hlength, srcRangeError_of_count hlow hhigh hrange] at checks
    exact exec_decode_of_error checks
  rw [hlength, (srcRangeError_eq_none_iff s).2 hrange] at checks
  refine ⟨fun hdstOff => ?_, fun hlow hhigh => ?_⟩
  · rw [dstOffError_of_offset hdstOff] at checks
    exact exec_decode_of_error checks
  rw [(dstOffError_eq_none_iff s).2 ⟨hlow, hhigh⟩] at checks
  refine ⟨fun hsrc => ?_, fun hsrc hcap => ?_, fun hsrc hcap hdst => ?_, fun hsrc hcap hdst hover => ?_,
    fun hsrc hcap hdst hapart => ?_⟩
  · rw [srcBusError_of_not_inDmem hsrc] at checks
    exact exec_decode_of_error checks
  · rw [(srcBusError_eq_none_iff s).2 hsrc, capacityError_of_lt hcap] at checks
    exact exec_decode_of_error checks
  · rw [(srcBusError_eq_none_iff s).2 hsrc, (capacityError_eq_none_iff s).2 hcap,
      dstRegionError_of_not_inDmem hdst] at checks
    exact exec_decode_of_error checks
  · rw [(srcBusError_eq_none_iff s).2 hsrc, (capacityError_eq_none_iff s).2 hcap,
      dstRegionError_of_not_apart hdst hover] at checks
    exact exec_decode_of_error checks
  · rw [exec_decode_of_checked ((decodeError_eq_none_iff s).2 ⟨hcnt, hrange, ⟨hlow, hhigh⟩, hsrc, hcap, hdst, hapart⟩)]
    exact decodeInto_stores hwf hcnt (dstAt s)

/-- Settles O31: as O30, with the list of checks of R150. -/
theorem decodeAllocFollowsItsRule : Obligations.DecodeAllocFollowsItsRule := by
  rintro s _ hwf rfl
  have checks := decodeAllocError_eq_findSome? s
  refine ⟨fun hcnt => ?_, fun hcnt => ?_⟩
  · rw [srcLengthError_of_not_multiple hcnt] at checks
    exact exec_decodeAlloc_of_error checks
  rw [(srcLengthError_eq_none_iff s).2 hcnt] at checks
  refine ⟨fun hoff => ?_, fun hlow hhigh hrange => ?_, fun hrange hsrc => ?_, fun hrange hsrc hdst => ?_,
    fun hrange hsrc hdst hover => ?_, fun hrange hsrc hdst hapart => ?_⟩
  · rw [srcRangeError_of_offset hoff] at checks
    exact exec_decodeAlloc_of_error checks
  · rw [srcRangeError_of_count hlow hhigh hrange] at checks
    exact exec_decodeAlloc_of_error checks
  · rw [(srcRangeError_eq_none_iff s).2 hrange, srcBusError_of_not_inDmem hsrc] at checks
    exact exec_decodeAlloc_of_error checks
  · rw [(srcRangeError_eq_none_iff s).2 hrange, (srcBusError_eq_none_iff s).2 hsrc,
      dstRegionError_of_not_inDmem hdst] at checks
    rw [exec_decodeAlloc_of_error checks, State.dstBase, BitVec.ofNat_toNat, BitVec.setWidth_eq]
  · rw [(srcRangeError_eq_none_iff s).2 hrange, (srcBusError_eq_none_iff s).2 hsrc,
      dstRegionError_of_not_apart hdst hover] at checks
    exact exec_decodeAlloc_of_error checks
  · rw [exec_decodeAlloc_of_checked ((decodeAllocError_eq_none_iff s).2 ⟨hcnt, hrange, hsrc, hdst, hapart⟩)]
    exact decodeInto_stores hwf hcnt s.dstBase

/-! ### A text group by group -/

/-- A text is empty when it has no group. -/
theorem groupText_isEmpty (groups : List TextGroup) :
    (groups.map TextGroup.chars).flatten.isEmpty = groups.isEmpty := by
  cases groups <;> rfl

/-- Decoding a text of groups: the first group is final exactly when no other follows. -/
theorem decodeText_groups_cons (index : Nat) (g : TextGroup) (groups : List TextGroup) :
    decodeText index ((g :: groups).map TextGroup.chars).flatten =
      match groupDecode g groups.isEmpty with
      | .err code pos => .err code (index + pos)
      | .ok bytes v =>
        match decodeText (index + 4) (groups.map TextGroup.chars).flatten with
        | .err code pos => .err code pos
        | .ok more => .ok (bytes.take v ++ more) := by
  rw [← groupText_isEmpty groups]
  exact decodeText_cons index g _

/-- The groups before a failing one shift its index by 4 each. -/
theorem decodeText_of_failing_group {g : TextGroup} {after : List TextGroup} {c : Byte} {k : Nat}
    (hfail : groupDecode g after.isEmpty = .err c k) (before : List TextGroup) (index : Nat)
    (hbefore : ∀ x ∈ before, ∃ b v, groupDecode x false = .ok b v) :
    decodeText index ((before ++ g :: after).map TextGroup.chars).flatten =
      .err c (index + (4 * before.length + k)) := by
  induction before generalizing index with
  | nil => simp only [List.nil_append, decodeText_groups_cons, hfail, List.length_nil, Nat.mul_zero, Nat.zero_add]
  | cons x before ih =>
    obtain ⟨b, v, hx⟩ := hbefore x (by simp)
    have hmore : (before ++ g :: after).isEmpty = false := by simp
    have hrest := ih (index + 4) fun y hy => hbefore y (by simp [hy])
    simp only [List.cons_append, decodeText_groups_cons, hmore, hx, hrest, List.length_cons, TextResult.err.injEq,
      true_and]
    omega

/-- The last group of a text is final. -/
theorem decodeText_last_group {g : TextGroup} {b : Buf3} {v : Nat} (h : groupDecode g true = .ok b v) (index : Nat) :
    decodeText index g.chars = .ok ([b.b0, b.b1, b.b2].take v) := by
  have hgroup := decodeText_groups_cons index g []
  simpa [h, decodeText, Buf3.take] using hgroup

/-- Whole groups give three bytes each, and the last group those it says are valid. -/
theorem decodeText_of_decoding_groups {g : TextGroup} {b : Buf3} {v : Nat} (hlast : groupDecode g true = .ok b v)
    (before : List (TextGroup × Buf3)) (index : Nat) (hbefore : ∀ x ∈ before, groupDecode x.1 false = .ok x.2 3) :
    decodeText index ((before.map Prod.fst ++ [g]).map TextGroup.chars).flatten =
      .ok ((before.map fun x => [x.2.b0, x.2.b1, x.2.b2]).flatten ++ [b.b0, b.b1, b.b2].take v) := by
  induction before generalizing index with
  | nil => simpa using decodeText_last_group hlast index
  | cons x before ih =>
    have hx := hbefore x (by simp)
    have hmore : (before.map Prod.fst ++ [g]).isEmpty = false := by simp
    have hrest := ih (index + 4) fun y hy => hbefore y (by simp [hy])
    rw [List.map_cons, List.cons_append, decodeText_groups_cons, hmore, hx, hrest]
    rfl

/-- Settles O32: induction on the groups before, each of which is not the last. -/
theorem textDecodesGroupByGroup : Obligations.TextDecodesGroupByGroup :=
  ⟨fun before _ _ _ _ hbefore hfail =>
      (decodeText_of_failing_group hfail before 0 hbefore).trans (by rw [Nat.zero_add]),
    fun before _ _ _ hbefore hlast => decodeText_of_decoding_groups hlast before 0 hbefore, rfl⟩

/-! ### The bulk round trip -/

/-- The text of a byte sequence decodes to it (R119, R133, R143). -/
theorem decodeText_encodeText (bs : List Byte) (index : Nat) : decodeText index (encodeText bs) = .ok bs := by
  induction bs using encodeText.induct generalizing index with
  | case1 => rfl
  | case2 b0 => exact decodeText_last_group (groupDecode_pack1 b0) index
  | case3 b0 b1 => exact decodeText_last_group (groupDecode_pack2 b0 b1) index
  | case4 b0 b1 b2 rest ih =>
    simp [encodeText, decodeText_cons, groupDecode_pack3, ih, Buf3.take]

/-- The operands of DECODE_ALLOC over a text of `len` characters at `src`, decoded to `dest`. -/
def Args.decodingText (a : Args) (src dest : Word) (len : Nat) : Args :=
  { a with srcBase := src, srcLen := BitVec.ofNat 32 len, srcOff := 0, srcCnt := BitVec.ofNat 32 len, dstBase := dest }

section
variable {t : State} {a : Args} {src dest : Word} {len : Nat} (hargs : t.args = a.decodingText src dest len)
  (hlen : len < 2 ^ 31)
include hargs hlen

theorem srcCnt_decodingText : t.srcCnt = len := by
  have hsext : sext (BitVec.ofNat 32 len) = len := by
    rw [sext, BitVec.toInt_ofNat', Int.bmod_eq_of_le] <;> omega
  rwa [State.srcCnt, hargs]

theorem srcN_decodingText : srcN t = len := by
  rw [srcN, srcCnt_decodingText hargs hlen, Int.toNat_natCast]

omit hlen in
theorem srcOff_decodingText : t.srcOff = 0 := by
  rw [State.srcOff, hargs]
  rfl

theorem srcInRange_decodingText : SrcInRange t := by
  have hcnt := srcCnt_decodingText hargs hlen
  have hoff : t.srcOff = 0 := srcOff_decodingText hargs
  have hsrcLen : t.srcLen = len := by
    simp only [State.srcLen, hargs, Args.decodingText, BitVec.toNat_ofNat]
    omega
  unfold SrcInRange
  omega

omit hlen in
theorem srcAt_decodingText : srcAt t = src.toNat := by
  rw [srcAt, srcOff_decodingText hargs, State.srcBase, hargs, Args.decodingText, Int.add_zero, Int.toNat_natCast]

/-- DECODE_ALLOC over the text of `bs` gives `bs` at its destination. -/
theorem exec_decodeAlloc_of_encodeText {bs : List Byte} (hwf : Memory.wf t.dmem = true)
    (htext : Memory.readBytes t.dmem src.toNat len = encodeText bs) (hsrc : InDmem t src.toNat len)
    (hdst : InDmem t dest.toNat bs.length) (hapart : Apart src.toNat len dest.toNat bs.length) :
    ∃ m, exec .decodeAlloc t = .next (completed { t with dmem := m } .ok (BitVec.ofNat 32 bs.length) 0 0) ∧
      Memory.readBytes m dest.toNat bs.length = bs := by
  have hn := srcN_decodingText hargs hlen
  have hat := srcAt_decodingText hargs
  have hbase : t.dstBase = dest.toNat := by rw [State.dstBase, hargs]; rfl
  have hwhole : t.srcCnt % 4 = 0 := by
    have htextLen := congrArg List.length htext
    rw [Memory.readBytes_length, encodeText_length] at htextLen
    rw [srcCnt_decodingText hargs hlen]
    omega
  have hdecodes : decodeText 0 (srcData t) = .ok bs := by
    rw [srcData, hat, hn, htext, decodeText_encodeText]
  have hdecoded := decodeText_src_length t hwhole hdecodes
  rw [exec_decodeAlloc_of_checked ((decodeAllocError_eq_none_iff t).2
    ⟨hwhole, srcInRange_decodingText hargs hlen, by rwa [hat, hn], by rwa [hbase, ← hdecoded],
      by rwa [hat, hn, hbase, ← hdecoded]⟩), decodeAllocDst_eq, hbase, ← hdecoded]
  obtain ⟨m, hm, -, hstored, -⟩ := decodeInto_of_ok ⟨dest.toNat, bs.length⟩ hdecodes hwf rfl
  exact ⟨m, hm, hstored⟩

end

/-- Settles O35: ENCODE leaves the text at DST_BASE, and DECODE_ALLOC over it gives the source bytes. -/
theorem bulkRoundTrip : Obligations.BulkRoundTrip := by
  rintro s t dest _ hwf rfl hrange hsrc hdst hapart hlen hdest haway henc
  rw [exec_encode_of_checked ((encodeError_eq_none_iff s).2 ⟨hrange, hsrc, hdst, hapart⟩)] at henc
  have ht := Host.Outcome.next.inj henc
  have hparams : t.params = s.params := by rw [← ht, completed]
  have hdmem : t.dmem = Memory.writeBytes s.dmem s.dstBase (encodeText (srcData s)) := by rw [← ht, completed]
  have hdata : (srcData s).length = srcN s := Memory.readBytes_length _ _ _
  have htext := Memory.readBytes_writeBytes hwf s.dstBase (encodeText (srcData s))
  rw [encodeText_length, hdata, ← hdmem] at htext
  have htwf : Memory.wf t.dmem = true := hdmem ▸ Memory.writeBytes_wf hwf _ _
  rw [InDmem, ← hparams] at hdst hdest
  obtain ⟨m, hm, hread⟩ := exec_decodeAlloc_of_encodeText (dest := dest)
    (t := { t with args := t.args.decodingText s.args.dstBase dest ((srcN s + 2) / 3 * 4) }) rfl hlen htwf htext hdst
    (hdata.symm ▸ hdest) (hdata.symm ▸ haway)
  rw [hdata] at hm hread
  exact ⟨_, hm, rfl, rfl, hread⟩

end Sys2Proof.Machine
end

section
/-! Where a command and a step stop: an access outside the interface, an oversized answer to SrcSkip, and a third byte
held (R50, R53, assumptions 7 to 10). -/

namespace Sys2Proof.Machine

open Sys2Proof.Claims

variable {i : Instr} {s t : State}

/-! ### Commands -/

/-- The source answers the SrcSkip of DEC_SKIP, at once or in the next step, with more than it was asked (U11). -/
def SkipStops (s : State) (r : Result) : Prop :=
  ∃ (asked : Nat) (w : Word) (d : Nat) (later : List (Nat × SkipAnswer)),
    r = .refused (.skipAnswerTooLarge asked w.toNat) ∧ asked < w.toNat ∧
      s.source.skipAnswers = (d, .skipped w) :: later ∧ d ≤ 1

theorem skipAnswered_of_too_large {asked total left : Nat} {w : Word} (h : asked < w.toNat) :
    skipAnswered asked total left (.skipped w) s = .refused (.skipAnswerTooLarge asked w.toNat) := if_pos h

theorem skipAnswered_next_or_too_large (asked total left : Nat) (a : SkipAnswer) (s : State) :
    (∃ t, skipAnswered asked total left a s = .next t) ∨ ∃ w : Word, a = .skipped w ∧ asked < w.toNat := by
  unfold skipAnswered
  split
  · exact .inl ⟨_, rfl⟩
  · rename_i w
    by_cases hlarge : asked < w.toNat
    · exact .inr ⟨w, rfl, hlarge⟩
    · refine .inl ?_
      simp only [hlarge, if_false]
      split
      · exact ⟨_, rfl⟩
      · split <;> exact ⟨_, rfl⟩

theorem awaitSkip_next_or_stops (asked total left : Nat) (s : State) :
    (∃ t, awaitSkip asked total left s = .next t) ∨
      ∃ (w : Word) (later : List (Nat × SkipAnswer)), asked < w.toNat ∧
        s.source.skipAnswers = (0, .skipped w) :: later ∧
        awaitSkip asked total left s = .refused (.skipAnswerTooLarge asked w.toNat) := by
  unfold awaitSkip
  split
  · rename_i a later hready
    rw [readyAnswer_eq_some_iff] at hready
    obtain hnext | ⟨w, rfl, hlarge⟩ := skipAnswered_next_or_too_large asked total left a (s.withSkipAnswers later)
    · exact .inl hnext
    · exact .inr ⟨w, later, hlarge, hready, skipAnswered_of_too_large hlarge⟩
  · exact .inl ⟨_, rfl⟩

theorem skipGroups_next_or_stops (total left : Nat) (s : State) :
    (∃ t, skipGroups total left s = .next t) ∨ SkipStops s (skipGroups total left s) := by
  unfold skipGroups
  split
  · refine (awaitSkip_next_or_stops (4 * (left / 3)) total left _).imp_right ?_
    exact fun ⟨w, later, hlarge, hanswers, hrefused⟩ => ⟨_, w, 0, later, hrefused, hlarge, hanswers, Nat.zero_le _⟩
  · exact .inl ⟨_, rfl⟩

theorem decSkipActive_next_or_stops (n : Nat) (s : State) :
    (∃ t, decSkipActive n s = .next t) ∨ SkipStops s (decSkipActive n s) := by
  simp only [decSkipActive]
  split
  · exact .inl ⟨_, rfl⟩
  · exact skipGroups_next_or_stops _ _ { s with dec := _ }

theorem execDecSkip_next_or_stops (s : State) : (∃ t, execDecSkip s = .next t) ∨ SkipStops s (execDecSkip s) := by
  unfold execDecSkip
  split
  · exact .inl ⟨_, rfl⟩
  · exact .inl ⟨_, rfl⟩
  · split <;> exact .inl ⟨_, rfl⟩
  · split
    · exact .inl ⟨_, rfl⟩
    · exact decSkipActive_next_or_stops _ s

/-- ENC_WRITE goes on unless three bytes are held, which no state between commands has (R41, assumption 8). -/
theorem execEncWrite_next (henc : s.enc.wf = true) : ∃ t, execEncWrite s = .next t := by
  unfold execEncWrite
  split
  · exact ⟨_, rfl⟩
  · exact ⟨_, rfl⟩
  · unfold encAppend
    split
    · exact ⟨_, rfl⟩
    · exact ⟨_, rfl⟩
    · exact ⟨_, rfl⟩
    · rename_i hfill
      obtain ⟨hle, -⟩ := (Encoder.wf_iff _).1 henc
      simp [hfill] at hle

theorem decodeInto_next (dst : Region) (s : State) : ∃ t, decodeInto s dst = .next t := by
  unfold decodeInto
  split <;> exact ⟨_, rfl⟩

/-- Every command but DEC_SKIP gives a next state. -/
theorem exec_next (henc : s.enc.wf = true) (hi : i ≠ .decSkip) : ∃ t, exec i s = .next t := by
  cases i with
  | nop | validate | encOpen | decOpen => exact ⟨_, rfl⟩
  | encWrite => exact execEncWrite_next henc
  | decSkip => exact absurd rfl hi
  | decode | decodeAlloc =>
    simp only [exec, execDecode, execDecodeAlloc]
    split
    · exact ⟨_, rfl⟩
    · exact decodeInto_next _ s
  | _ =>
    simp only [exec, execEncode, execEncClose, execDecRead, execDecAvail, execDecClose, execTblAlpha, execTblInv]
    split <;> exact ⟨_, rfl⟩

theorem exec_encWrite_of_full (hmode : s.enc.mode = .opened) (hfill : s.enc.fill = 3) :
    exec .encWrite s = .fault .encoderBufferFull := by
  simp only [exec, execEncWrite, hmode, encAppend, hfill]

/-- Settles O59: the group buffer of ENC_WRITE is full, and the answer to SrcSkip is above what was asked. -/
theorem commandsStopByNameInTwoPlaces : Obligations.CommandsStopByNameInTwoPlaces := by
  refine ⟨fun s => exec_encWrite_of_full, ?_⟩
  intro s n k q w later hn hmode hcursor hk _ hq hgroups hskip hlarge
  rw [exec_decSkip_of_skip_answer hmode hn hcursor hk hq hgroups hskip, skipAnswered_of_too_large hlarge]

/-! ### The engine's moves -/

/-- DEC_SKIP's command word (R72). -/
theorem encode_decSkip : encode .decSkip = 0x22#32 := rfl

theorem runCommand_next_or_stops (w : Word) (henc : s.enc.wf = true) :
    (∃ t, runCommand w s = .next t) ∨ w = 0x22#32 ∧ SkipStops s (runCommand w s) := by
  unfold runCommand
  split
  · rename_i i hdecode
    by_cases hi : i = .decSkip
    · subst hi
      rw [decode_ok_iff, encode_decSkip] at hdecode
      exact (execDecSkip_next_or_stops s).imp_right fun hstops => ⟨hdecode, hstops⟩
    · exact .inl (exec_next henc hi)
  · exact .inl ⟨_, rfl⟩

theorem startCommand_next_or_stops (w : Word) (henc : s.enc.wf = true) :
    (∃ t, startCommand w s = .next t) ∨ w = 0x22#32 ∧ SkipStops s (startCommand w s) := by
  unfold startCommand
  split
  · exact runCommand_next_or_stops (s := s.accept w) w henc
  · exact runCommand_next_or_stops (s := { s.accept w with latency := _ }) w henc
  · exact .inl ⟨_, rfl⟩

theorem runAccepted_next_or_stops (dst : Region) (broken : Bool) (henc : s.enc.wf = true) :
    (∃ t, runAccepted dst broken s = .next t) ∨ s.cmdWord = some 0x22#32 ∧ SkipStops s (runAccepted dst broken s) := by
  unfold runAccepted
  split
  · exact .inl ⟨_, rfl⟩
  · split
    · rename_i w hword
      refine (runCommand_next_or_stops (s := { s with phase := .running }) w henc).imp_right ?_
      exact fun ⟨hw, hstops⟩ => ⟨hw ▸ hword, hstops⟩
    · exact .inl ⟨_, rfl⟩

/-- The answer due in this step was the first, at most one step away. -/
theorem eq_cons_of_elapse_eq_cons {α : Type} {q later : List (Nat × α)} {a : α} (h : elapse q = (0, a) :: later) :
    ∃ d, q = (d, a) :: later ∧ d ≤ 1 := by
  unfold elapse at h
  split at h
  · rename_i d b rest
    simp only [List.cons.injEq, Prod.mk.injEq] at h
    obtain ⟨⟨rfl, rfl⟩, rfl⟩ := h
    exact ⟨1, rfl, le_rfl⟩
  · exact ⟨0, h, Nat.zero_le _⟩

/-- The engine moves on unless its command is DEC_SKIP and the answer to its SrcSkip is too large. -/
theorem tick_next_or_stops (hinv : MachineInv s) :
    (∃ t, tick s = .next t) ∨ s.cmdWord = some 0x22#32 ∧ SkipStops s (tick s) := by
  have hwf := hinv.phaseWf
  unfold Phase.wf at hwf
  cases hphase : s.phase with
  | accepted n src dst broken =>
    simp only [tick, hphase]
    split
    · exact runAccepted_next_or_stops dst broken (hinv.encWf (by rw [hphase]; rfl))
    · exact .inl ⟨_, rfl⟩
  | skipping asked total left =>
    simp only [tick, hphase] at hwf ⊢
    obtain hnext | ⟨w, later, hlarge, hanswers, hrefused⟩ :=
      awaitSkip_next_or_stops asked total left (s.withSkipAnswers (elapse s.source.skipAnswers))
    · exact .inl hnext
    · obtain ⟨d, hd, hle⟩ := eq_cons_of_elapse_eq_cons hanswers
      exact .inr ⟨hwf.1, asked, w, d, later, hrefused, hlarge, hd, hle⟩
  | _ =>
    simp only [tick, hphase]
    exact .inl ⟨_, rfl⟩

/-! ### The host's accesses -/

/-- A host access outside the interface, and how the machine stops on it (R50, R53, assumptions 9 and 10). -/
inductive OutsideInterface (p : Config.Params) : Input → Result → Prop where
  | dmemRead {a : Nat} : p.dmemSize ≤ a → OutsideInterface p (.dmemRead a) (.fault (.noSuchDmemAddress a))
  | dmemWrite {a : Nat} (v : Byte) :
      p.dmemSize ≤ a → OutsideInterface p (.dmemWrite a v) (.fault (.noSuchDmemAddress a))
  | csrRead {addr : Nat} {width : AccessWidth} : touchesWindow p addr width = true →
      alignedAccess p addr width = false →
      OutsideInterface p (.csrRead addr width) (.refused (.csrAccessShape addr width))
  | csrWrite {addr : Nat} {width : AccessWidth} (v : Word) : touchesWindow p addr width = true →
      alignedAccess p addr width = false →
      OutsideInterface p (.csrWrite addr width v) (.refused (.csrAccessShape addr width))

theorem hostCsrRead_next_or_outside (addr : Nat) (width : AccessWidth) (s : State) :
    (∃ t, hostCsrRead addr width s = .next t) ∨
      OutsideInterface s.params (.csrRead addr width) (hostCsrRead addr width s) := by
  unfold hostCsrRead
  split
  · exact .inl ⟨_, rfl⟩
  · rename_i htouches
    split
    · rename_i haligned
      exact .inr (.csrRead (by simpa using htouches) (by simpa using haligned))
    · exact .inl ⟨_, rfl⟩

theorem hostDmemRead_next_or_outside (a : Nat) (s : State) :
    (∃ t, hostDmemRead a s = .next t) ∨ OutsideInterface s.params (.dmemRead a) (hostDmemRead a s) := by
  unfold hostDmemRead
  split
  · split <;> exact .inl ⟨_, rfl⟩
  · exact .inr (.dmemRead (by omega))

theorem hostDmemWrite_next_or_outside (a : Nat) (v : Byte) (s : State) :
    (∃ t, hostDmemWrite a v s = .next t) ∨ OutsideInterface s.params (.dmemWrite a v) (hostDmemWrite a v s) := by
  unfold hostDmemWrite
  split
  · exact .inl ⟨_, rfl⟩
  · exact .inr (.dmemWrite v (by omega))

/-- A write of the window gives a next state, is outside the interface, or starts a command on an IDLE engine. -/
theorem hostCsrWrite_next_or_stops (addr : Nat) (width : AccessWidth) (v : Word) (s : State) :
    (∃ t, hostCsrWrite addr width v s = .next t) ∨
      OutsideInterface s.params (.csrWrite addr width v) (hostCsrWrite addr width v s) ∨
      addr = s.params.csrBase + csrOffset .cmd ∧ width = .word ∧ s.busy = false ∧
        hostCsrWrite addr width v s = startCommand v s := by
  unfold hostCsrWrite
  split
  · exact .inl ⟨_, rfl⟩
  rename_i htouches
  split
  · rename_i haligned
    exact .inr (.inl (.csrWrite v (by simpa using htouches) (by simpa using haligned)))
  rename_i haligned
  obtain ⟨hwidth, hbase, -⟩ := (alignedAccess_iff s.params addr width).1 (by simpa using haligned)
  unfold writeOffset
  split
  · rename_i hcmd
    unfold writeCmd
    split
    · exact .inl ⟨_, rfl⟩
    · rename_i hidle
      exact .inr (.inr ⟨by rw [csrOffset_of_csrAt hcmd, Nat.add_sub_cancel' hbase], hwidth, by simpa using hidle, rfl⟩)
  · exact .inl ⟨_, rfl⟩

theorem takeInput_next_or_stops (x : Input) (s : State) :
    (∃ t, takeInput x s = .next t) ∨ OutsideInterface s.params x (takeInput x s) ∨
      ∃ w, x = .csrWrite (s.params.csrBase + csrOffset .cmd) .word w ∧ s.busy = false ∧
        takeInput x s = startCommand w s := by
  cases x with
  | csrWrite addr width v =>
    refine (hostCsrWrite_next_or_stops addr width v s).imp_right (Or.imp_right ?_)
    rintro ⟨rfl, rfl, hidle, hstart⟩
    exact ⟨v, rfl, hidle, hstart⟩
  | csrRead addr width => exact (hostCsrRead_next_or_outside addr width s).imp_right .inl
  | dmemWrite a v => exact (hostDmemWrite_next_or_outside a v s).imp_right .inl
  | dmemRead a => exact (hostDmemRead_next_or_outside a s).imp_right .inl
  | wait | reset => exact .inl ⟨_, rfl⟩

/-! ### Steps -/

/-- A step gives a next state, or stops on the host's access or on the answer to a DEC_SKIP latched or written now. -/
theorem step_next_or_stops (hinv : MachineInv s) :
    (∃ t, step s = .next t) ∨ (∃ x rest, s.inputs = x :: rest ∧ OutsideInterface s.params x (step s)) ∨
      (s.cmdWord = some 0x22#32 ∨ ∃ rest, writes s .cmd 0x22#32 rest) ∧ SkipStops s (step s) := by
  have moves {u : State} (hu : MachineInv u) (hsource : u.source = s.source) (hword : u.cmdWord = s.cmdWord) :
      (∃ t, advance s.busy (.next u) = .next t) ∨
        s.cmdWord = some 0x22#32 ∧ SkipStops s (advance s.busy (.next u)) := by
    rw [advance_next]
    split
    · rw [← hword, SkipStops, ← hsource]
      exact tick_next_or_stops hu
    · exact .inl ⟨_, rfl⟩
  cases hinputs : s.inputs with
  | nil =>
    rw [step_of_no_input hinputs]
    exact (moves hinv rfl rfl).imp_right fun hstops => .inr ⟨.inl hstops.1, hstops.2⟩
  | cons x rest =>
    rw [step_of_input hinputs]
    obtain ⟨u, hu⟩ | houtside | ⟨w, rfl, hidle, hstart⟩ := takeInput_next_or_stops x { s with inputs := rest }
    · rw [hu]
      by_cases hreset : x = .reset
      · subst hreset
        cases hu
        rw [advance_of_idle rfl]
        exact .inl ⟨_, rfl⟩
      have htaken : MachineInv { s with inputs := rest } := ((AccessFrame.refl s).logged rest _ _ _).inv hinv
      obtain hframe | ⟨w, rfl, hidle, hstart⟩ := accessFrame_or_start hreset hu
      · refine (moves (hframe.inv htaken) hframe.source hframe.cmdWord).imp_right fun hstops => ?_
        exact .inr ⟨.inl hstops.1, hstops.2⟩
      · rw [show s.busy = false from hidle]
        exact .inl ⟨u, rfl⟩
    · refine .inr (.inl ⟨x, rest, rfl, ?_⟩)
      cases hr : takeInput x { s with inputs := rest } with
      | next u => rw [hr] at houtside; cases houtside
      | _ => rwa [hr] at houtside
    · rw [hstart, show s.busy = false from hidle, advance_false]
      refine (startCommand_next_or_stops (s := { s with inputs := rest }) w (hinv.encWf_of_idle hidle)).imp_right ?_
      exact fun ⟨hw, hstops⟩ => .inr ⟨.inr ⟨rest, hw ▸ hinputs⟩, hstops⟩

/-- An access of the window that is not aligned has the wrong width, starts below it or lies between words. -/
theorem alignedAccess_eq_false_iff (p : Config.Params) (addr : Nat) (width : AccessWidth) :
    alignedAccess p addr width = false ↔ width ≠ .word ∨ addr < p.csrBase ∨ (addr - p.csrBase) % 4 ≠ 0 := by
  rw [← Bool.not_eq_true, alignedAccess_iff]
  simp only [not_and_or, Nat.not_le, ne_eq]

/-- Settles O60: a fault is a DMEM access outside the interface, a refusal one of the window or an answer to SrcSkip. -/
theorem stepStopsOnlyOutsideTheInterface : Obligations.StepStopsOnlyOutsideTheInterface := by
  intro s hinv
  have hstep := step_next_or_stops hinv
  constructor
  · intro f hf
    rw [hf] at hstep
    obtain ⟨t, ht⟩ | ⟨x, rest, hinputs, houtside⟩ | ⟨-, _, _, _, _, hrefused, -⟩ := hstep
    · cases ht
    · cases houtside with
      | dmemRead hsize => exact ⟨_, rfl, hsize, rest, .inl hinputs⟩
      | dmemWrite v hsize => exact ⟨_, rfl, hsize, rest, .inr ⟨v, hinputs⟩⟩
    · cases hrefused
  · intro r hr
    rw [hr] at hstep
    obtain ⟨t, ht⟩ | ⟨x, rest, hinputs, houtside⟩ | ⟨hcmd, asked, w, d, later, hrefused, hlarge, hanswers, hle⟩ := hstep
    · cases ht
    · cases houtside with
      | csrRead htouches haligned =>
        obtain ⟨hhigh, hlow⟩ := (touchesWindow_iff _ _ _).1 htouches
        exact .inl ⟨_, _, rest, rfl, .inl hinputs, hlow, hhigh, (alignedAccess_eq_false_iff _ _ _).1 haligned⟩
      | csrWrite v htouches haligned =>
        obtain ⟨hhigh, hlow⟩ := (touchesWindow_iff _ _ _).1 htouches
        exact .inl ⟨_, _, rest, rfl, .inr ⟨v, hinputs⟩, hlow, hhigh, (alignedAccess_eq_false_iff _ _ _).1 haligned⟩
    · cases hrefused
      exact .inr ⟨asked, w, d, later, rfl, hlarge, hanswers, hle, hcmd⟩

end Sys2Proof.Machine
end

section
/-! Waiting for a port, step by step: ENC_WRITE and ENC_CLOSE for the sink, the decoder commands for the source, and
step 3 of DEC_SKIP (R174, R190-R194, R207-R215, R283). -/

namespace Sys2Proof.Machine

open Sys2Proof.Claims

variable {s : State}

/-! ### The engine's move in each waiting phase -/

section
variable (hinputs : s.inputs = [])
include hinputs

theorem step_of_putting {c : Byte} {cs : List Byte} {goal : EmitFor} (hphase : s.phase = .putting c cs goal) :
    step s = .next (awaitPut goal c cs (putAnswersLeft s (elapse s.sink.putAnswers))) := by
  rw [step_of_busy_no_input (by simp [hphase]) hinputs, tick, hphase]
  rfl

theorem step_of_closingSink {sent : Nat} (hphase : s.phase = .closingSink sent) :
    step s = .next (awaitSinkClose sent (sinkCloseAnswersLeft s (elapse s.sink.closeAnswers))) := by
  rw [step_of_busy_no_input (by simp [hphase]) hinputs, tick, hphase]
  rfl

theorem step_of_pulling {got : List Byte} {goal : PullFor} (hphase : s.phase = .pulling got goal) :
    step s = .next (pullOn (elapse s.source.readAnswers) got goal s) := by
  rw [step_of_busy_no_input (by simp [hphase]) hinputs, tick, hphase]

theorem step_of_skipping {asked total left : Nat} (hphase : s.phase = .skipping asked total left) :
    step s = awaitSkip asked total left (skipAnswersLeft s (elapse s.source.skipAnswers)) := by
  rw [step_of_busy_no_input (by simp [hphase]) hinputs, tick, hphase]
  rfl

theorem step_of_availing (hphase : s.phase = .availing) :
    step s = .next (awaitAvail (availAnswersLeft s (elapse s.source.availAnswers))) := by
  rw [step_of_busy_no_input (by simp [hphase]) hinputs, tick, hphase]
  rfl

theorem step_of_closingSource (hphase : s.phase = .closingSource) :
    step s = .next (awaitSourceClose (sourceCloseAnswersLeft s (elapse s.source.closeAnswers))) := by
  rw [step_of_busy_no_input (by simp [hphase]) hinputs, tick, hphase]
  rfl

end

/-! ### What a wait does with the next answer -/

theorem late_succ {α : Type} (d : Nat) (a : α) (q : List (Nat × α)) : Late ((d + 1, a) :: q) := .inr ⟨d, a, q, rfl⟩

theorem awaitPut_of_ack {c : Byte} {cs : List Byte} {goal : EmitFor} {later : List (Nat × Answer)}
    (h : s.sink.putAnswers = (0, .ack) :: later) : awaitPut goal c cs s = emit goal cs (accepting s c later) := by
  simp only [awaitPut, (readyAnswer_eq_some_iff _ _ _).2 h]
  rfl

theorem awaitSkip_of_answer {asked total left : Nat} {a : SkipAnswer} {later : List (Nat × SkipAnswer)}
    (h : s.source.skipAnswers = (0, a) :: later) :
    awaitSkip asked total left s = skipAnswered asked total left a (skipAnswersLeft s later) := by
  simp only [awaitSkip, (readyAnswer_eq_some_iff _ _ _).2 h]
  rfl

theorem awaitAvail_of_answer {a : AvailAnswer} {later : List (Nat × AvailAnswer)}
    (h : s.source.availAnswers = (0, a) :: later) : awaitAvail s = availAnswered a (availAnswersLeft s later) := by
  simp only [awaitAvail, (readyAnswer_eq_some_iff _ _ _).2 h]
  rfl

theorem awaitSourceClose_of_answer {a : Answer} {later : List (Nat × Answer)}
    (h : s.source.closeAnswers = (0, a) :: later) :
    awaitSourceClose s = sourceClosed a (sourceCloseAnswersLeft s later) := by
  simp only [awaitSourceClose, (readyAnswer_eq_some_iff _ _ _).2 h]
  rfl

/-! ### The encoder -/

/-- The last characters of ENC_WRITE's group are accepted: the command completes (R173). -/
theorem step_of_last_acks {c : Byte} {rest : List Byte} {later : List (Nat × Answer)}
    (hphase : s.phase = .putting c rest .write) (hinputs : s.inputs = [])
    (hputs : s.sink.putAnswers = (1, .ack) :: (acks rest.length ++ later)) :
    step s = .next (completed (encEmptied (offered (accepting s c (acks rest.length ++ later)) rest later) s.enc.mode)
      .ok 4 0 0) := by
  rw [step_of_putting hinputs hphase, hputs, elapse, awaitPut_of_ack rfl, emit_acks _ _ later _ rfl,
    emitted_write_eq_completed]
  rfl

/-- With nothing held, ENC_CLOSE closes the sink at once (R176). -/
theorem exec_encClose_of_nothing_held (hopen : s.enc.mode = .opened) (hfill : s.enc.fill = 0) :
    exec .encClose s = .next (awaitSinkClose 0 (closingSink (encEmptied s .opened))) := by
  rw [exec_encClose_of_opened hopen]
  simp only [encFlush, hfill, closeSink, ← hopen]
  rfl

/-- Settles O40: what the first request of each command does is EncEmit, and each step of a wait counts down or is the
wait's own move on the answer that has come. -/
theorem encoderWaitsForTheSink : Obligations.EncoderWaitsForTheSink := by
  refine ⟨?_, ?_, ?_, ?_, ?_⟩
  · rintro s k b cs c later - hopen hfill hb rfl hc hputs hlate
    rw [exec_encWrite_of_fill_two hb hopen hfill]
    exact congrArg _ (emit_wait .write _ k c later _ hputs hlate hc)
  · intro s c rest later hphase hinputs hputs
    rw [step_of_last_acks hphase hinputs hputs]
    simp only [offered, accepting, List.append_assoc, List.singleton_append]
  · intro s b c cs hopen hb
    refine ⟨fun hfill hchars => ?_, fun hheld => ?_, fun hfill => ?_⟩
    · rw [exec_encWrite_of_fill_two hb hopen hfill, hchars]
      exact ⟨_, rfl, emit_offers .write cs c _⟩
    · have hpending : s.enc.fill = 1 ∧ c :: cs = (pack1 s.enc.hb.b0).chars ∨
          s.enc.fill = 2 ∧ c :: cs = (pack2 s.enc.hb.b0 s.enc.hb.b1).chars :=
        hheld.imp (And.imp_right Eq.symm) (And.imp_right Eq.symm)
      rw [exec_encClose_of_opened hopen, encFlush_of_pending hpending]
      exact ⟨_, rfl, emit_offers .close cs c s⟩
    · rw [exec_encClose_of_nothing_held hopen hfill]
      exact ⟨_, rfl, awaitSinkClose_sinkCloses 0 _⟩
  · intro s c cs goal a d q hphase hinputs
    rw [step_of_putting hinputs hphase]
    refine ⟨fun hputs => ?_, fun hputs => ?_⟩ <;> rw [hputs, elapse]
    · rw [awaitPut_of_late (late_succ d a q)]
    · exact ⟨_, rfl, awaitPut_offers hphase⟩
  · intro s sent a d q hphase hinputs
    rw [step_of_closingSink hinputs hphase]
    refine ⟨fun hcloses => ?_, fun hcloses => ?_⟩ <;> rw [hcloses, elapse]
    · rw [awaitSinkClose_of_late (late_succ d a q)]
      exact congrArg _ (waitIn_of_phase hphase)
    · exact ⟨_, rfl, awaitSinkClose_sinkCloses sent _⟩

/-! ### The decoder -/

/-- The characters of DEC_READ's group that were missing come: the command completes (R194, R200). -/
theorem step_of_last_chars {cs rest : List Byte} {c : Byte} {g : TextGroup} {b : Buf3} {v : Nat}
    {later : List (Nat × ReadAnswer)} (hphase : s.phase = .pulling cs .read) (hinputs : s.inputs = [])
    (hchars : g.chars = cs ++ c :: rest) (hdecode : groupDecode g true = .ok b v)
    (hreads : s.source.readAnswers = (1, .char c) :: (chars rest ++ later)) :
    step s = .next (completed (decLoaded (readFrom s rest.length later) b v 1) .ok (b.b0.setWidth 32) 0 0) := by
  have hgroup := pullOn_group g cs (c :: rest) later .read s hchars (List.cons_ne_nil _ _)
  simp only [hdecode] at hgroup
  rw [step_of_pulling hinputs hphase, hreads, elapse]
  exact congrArg _ (hgroup.trans (State.finish_ok_eq_completed _ _))

/-- More than two bytes are left after the buffered ones, and the SrcSkip for them is not answered yet (R207). -/
theorem exec_decSkip_of_late {n k : Nat} (hmode : s.dec.mode = .active) (hn : (n : Int) = s.argInt)
    (hcursor : s.dec.cursor ≤ s.dec.valid) (hk : k = s.dec.unread) (hgroups : k + 3 ≤ n)
    (hlate : Late s.source.skipAnswers) :
    exec .decSkip s =
      .next { requesting { s with dec := { s.dec with cursor := s.dec.valid } } (.skip (4 * ((n - k) / 3))) with
        phase := .skipping (4 * ((n - k) / 3)) k (n - k) } := by
  subst hk
  rw [exec_decSkip_of_active hmode hn, decSkipActive_of_unread_lt hcursor (by omega), skipGroups, if_pos (by omega)]
  exact awaitSkip_of_late hlate

theorem exec_decAvail_of_late (hmode : s.dec.mode = .active) (hlate : Late s.source.availAnswers) :
    exec .decAvail s = .next { requesting s .avail with phase := .availing } := by
  simp only [exec, execDecAvail, hmode]
  exact congrArg _ (awaitAvail_of_late (s := requesting s .avail) hlate)

theorem exec_decClose_of_late (hmode : s.dec.mode = .active ∨ s.dec.mode = .eoi) (hlate : Late s.source.closeAnswers) :
    exec .decClose s = .next { requesting s .close with phase := .closingSource } := by
  have hwait := awaitSourceClose_of_late (s := requesting s .close) hlate
  obtain hmode | hmode := hmode <;> simp only [exec, execDecClose, hmode] <;> exact congrArg _ hwait

/-- Settles O44: as O40, with PullGroup and the answers of SrcSkip, SrcAvail and SrcClose. -/
theorem decoderWaitsForTheSource : Obligations.DecoderWaitsForTheSource := by
  refine ⟨?_, ?_, ?_, ?_, ?_, ?_, ?_, ?_⟩
  · intro s cs later hmode hempty hlen hreads hlate
    rw [exec_decRead_of_empty hmode hempty, pullGroup_of_chars .read hlen hreads, pullOn_wait _ _ _ _ hlate]
    rfl
  · intro s cs rest c g b v later hphase hinputs hchars hdecode hreads
    exact step_of_last_chars hphase hinputs hchars hdecode hreads
  · intro s hmode
    refine ⟨fun hempty => ?_, fun n k hn hcursor hk hgroups hlate => ?_, exec_decAvail_of_late hmode⟩
    · exact ⟨_, exec_decRead_of_empty hmode hempty, pullGroup_pulls .read s⟩
    · exact exec_decSkip_of_late hmode hn hcursor hk hgroups hlate
  · exact fun s => exec_decClose_of_late
  · intro s got goal a d q hphase hgot hinputs
    rw [step_of_pulling hinputs hphase]
    refine ⟨fun hreads => ?_, fun hreads => ?_⟩ <;> rw [hreads, elapse]
    · rw [pullOn_wait _ _ _ _ (late_succ d a q)]
      exact congrArg _ (waitIn_of_phase hphase)
    · exact ⟨_, rfl, pullOn_pulls _ got goal s hgot⟩
  · intro s asked total left a d q hphase hasked hinputs
    rw [step_of_skipping hinputs hphase]
    refine ⟨fun hskips => ?_, fun hskips hadmitted => ?_, fun w hskips hlarge => ?_⟩ <;> rw [hskips, elapse]
    · rw [awaitSkip_of_late (late_succ d a q)]
      exact congrArg _ (waitIn_of_phase hphase)
    · refine awaitSkip_skips hasked fun w later hnext => hadmitted w ?_
      cases hnext
      rfl
    · rw [awaitSkip_of_answer rfl, skipAnswered_of_too_large hlarge]
  · intro s a d q hphase hcursor hinputs
    rw [step_of_availing hinputs hphase]
    refine ⟨fun havails => ?_, fun c havails => ?_, fun info havails => ?_⟩ <;> rw [havails, elapse]
    · rw [awaitAvail_of_late (late_succ d a q)]
      exact congrArg _ (waitIn_of_phase hphase)
    · have hle : s.dec.cursor.val ≤ s.dec.valid.val := hcursor
      refine ⟨toWord (s.dec.unread + c.toNat / 4 * 3), ?_, ?_⟩
      · rw [toNat_toWord_avail, Decoder.unread]
        omega
      · rw [awaitAvail_of_answer rfl]
        rfl
    · rw [awaitAvail_of_answer rfl]
      rfl
  · intro s a d q hphase hinputs
    rw [step_of_closingSource hinputs hphase]
    refine ⟨fun hcloses => ?_, fun hcloses => ?_, fun info hcloses => ?_⟩ <;> rw [hcloses, elapse]
    · rw [awaitSourceClose_of_late (late_succ d a q)]
      exact congrArg _ (waitIn_of_phase hphase)
    · rw [awaitSourceClose_of_answer rfl]
      rfl
    · rw [awaitSourceClose_of_answer rfl]
      rfl

/-! ### Step 3 of DEC_SKIP -/

/-- One or two bytes left after the buffered ones are taken from pulled groups (R211). -/
theorem exec_decSkip_of_remainder {n k r : Nat} (hn : (n : Int) = s.argInt) (hmode : s.dec.mode = .active)
    (hcursor : s.dec.cursor ≤ s.dec.valid) (hk : k = s.dec.unread) (hsum : n = k + r) (hlow : 1 ≤ r) (hhigh : r ≤ 2) :
    exec .decSkip s = .next (pullGroup (.skip k r) { s with dec := { s.dec with cursor := s.dec.valid } }) := by
  subst hk hsum
  rw [exec_decSkip_of_active hmode hn, decSkipActive_of_unread_lt hcursor (by omega), Nat.add_sub_cancel_left,
    skipGroups_of_lt_three (by omega), skipRest_of_pos hlow]

/-- Reading is asked for on top of what was read before. -/
theorem readFrom_decLoaded (t : State) (b : Buf3) (v m n : Nat) (later later' : List (Nat × ReadAnswer)) :
    readFrom (decLoaded (readFrom t m later) b v v) n later' = decLoaded (readFrom t (m + n) later') b v v := by
  simp only [readFrom, decLoaded, List.append_assoc, List.replicate_add]

/-- Settles O48: one case per way the source gives the group, and the group after one that is too short. -/
theorem decSkipPullsTheRemainder : Obligations.DecSkipPullsTheRemainder := by
  intro s t n k r later hn hmode hcursor hk hsum hlow hhigh ht
  have hall : BitVec.ofNat 32 (k + r) = s.args.arg := hsum ▸ toWord_eq_of_toInt hn
  have hsource : t.source = s.source := by rw [ht]
  rw [exec_decSkip_of_remainder hn hmode hcursor hk hsum hlow hhigh, ← ht, ← hsource]
  refine ⟨?_, ?_, ?_, ?_, ?_, ?_, ?_, ?_⟩
  · intro g b v hreads hdecode henough
    rw [pullGroup_skip_of_enough k hreads hdecode henough, hall]
  · intro g g' b b' v v' hreads hdecode hshort hdecode'
    obtain ⟨hvalid, -⟩ := groupDecode_valid_range hdecode
    obtain ⟨hvalid', -⟩ := groupDecode_valid_range hdecode'
    rw [chars_append, List.append_assoc] at hreads
    rw [pullGroup_skip_of_short k hreads hdecode hshort, pullGroup_skip_of_enough _ rfl hdecode' (by omega),
      readFrom_decLoaded, ← hall, show k + v + (r - v) = k + r by omega]
    rfl
  · intro hreads
    rw [pullGroup_of_eof _ hreads]
    rfl
  · intro g b v hreads hdecode hshort
    rw [pullGroup_skip_of_short k hreads hdecode hshort, pullGroup_of_eof _ rfl, readFrom_decLoaded]
    rfl
  · exact fun g c pos hreads hdecode => congrArg _ (pullGroup_of_invalid _ hreads hdecode)
  · exact fun cs hlow hhigh hreads => congrArg _ (pullGroup_of_cut _ hlow hhigh hreads)
  · exact fun cs info hlen hreads => congrArg _ (pullGroup_of_err _ hlen hreads)
  · exact ⟨_, rfl, pullGroup_pulls _ _⟩

end Sys2Proof.Machine
end
